-- ==== Sys2Proof/Word.lean ====
section
/-!
DEFINITION. The words of the wire: levels, pin roles, line modes, pin events (spec/00_scope.md R11, R13, R16; spec/20_memory.md R61).
-/

namespace Sys2Proof

/-- Eight bits: a wire byte, a ButtonMask, a command argument (R12). -/
abbrev Byte := BitVec 8

/-- The two logical levels of a line (R11). -/
inductive Level where
  | L
  | H
deriving DecidableEq, Repr, Inhabited

/-- The pin roles of all variants (R61): `BTN0` to `BTN7` of the direct reader, `LATCH`, `CLOCK`, `DATA` of the shift
reader, `ATT`, `CLK`, `CMD`, `DAT` of the serial reader. -/
inductive Role where
  | btn (i : Fin 8)
  | latch
  | clock
  | data
  | att
  | clk
  | cmd
  | dat
deriving DecidableEq, Repr, Inhabited

/-- `MODE[p]` (R42): `UNCONFIGURED`, `OUT`, `IN`, `IN_PU` (input with pull-up). -/
inductive Mode where
  | unconfigured
  | out
  | inp
  | inpPullUp
deriving DecidableEq, Repr, Inhabited

/-- A pin event of the trace (R16): `CFG_OUT(p)`, `CFG_IN(p)`, `CFG_IN_PU(p)`, `DRV(p, v)`, `SMP(p) = l`, `DLY(t)`. -/
inductive Event where
  | cfgOut (p : Role)
  | cfgIn (p : Role)
  | cfgInPu (p : Role)
  | drv (p : Role) (v : Level)
  | smp (p : Role) (l : Level)
  | dly (t : Nat)
deriving DecidableEq, Repr

/-- A pin event with the model time, in microseconds, at which it begins (R284: lower bounds on trace timestamps). -/
structure Stamped where
  time : Nat
  ev : Event
deriving DecidableEq, Repr

/-- `bit(l)` of R13: 1 when the level is `L`; the active-low inversion, done once, at sampling (R68). -/
def bit (l : Level) : Bool := l == .L

/-- `lvl(b)` of R13: `H` when the bit is 1; the command line is not inverted (R68). -/
def lvl (b : Bool) : Level := if b then .H else .L

/-- One value for each of the 15 roles, as plain data. -/
abbrev RoleMap (α : Type) := Vector α 15

/-- The place of a role in a `RoleMap`. -/
def Role.idx : Role → Fin 15
  | .btn i => ⟨i.val, by omega⟩
  | .latch => 8
  | .clock => 9
  | .data => 10
  | .att => 11
  | .clk => 12
  | .cmd => 13
  | .dat => 14

/-- The map that holds one value for every role. -/
def RoleMap.const {α : Type} (a : α) : RoleMap α := Vector.replicate 15 a

/-- The value a `RoleMap` holds for a role. -/
def RoleMap.get {α : Type} (m : RoleMap α) (p : Role) : α := m[p.idx]

/-- The map with the value of one role replaced. -/
def RoleMap.put {α : Type} (m : RoleMap α) (p : Role) (a : α) : RoleMap α := m.set p.idx a

end Sys2Proof
end

