-- ==== Sys2Proof/Syntax.lean ====
section
/-!
DEFINITION. The operations of the block: one constructor for each of the 52 rows of spec/opcode_table.json
(spec/30_encoding.md R105).
-/

namespace Sys2Proof

/-- The rows of the operation table. An operand is what the row's encoding leaves open (`cmd_arg`, the scratch value, the
field) or, for a primitive, the operands its rule names (R140 to R145), which the tag does not hold. -/
inductive Instr where
  -- host commands, F-CMD (R99); the argument is `cmd_arg`
  | init (arg : Byte)
  | read (arg : Byte)
  | ispressed (arg : Byte)
  | cmdReserved (arg : Byte)
  -- phases, F-PHASE (R101)
  | idle
  | dispatch
  | respond
  | halt
  | gInit
  | gClear
  | gSmp
  | gDone
  | sInit
  | sLatchHi
  | sLatchLo
  | sSample
  | sClkLo
  | sClkHi
  | sRemap
  | pInit
  | pSettle
  | pAttLo
  | pLoad
  | xCmd
  | xClkLo
  | xClkHi
  | xHold
  | pStore
  | pAttHi
  | pRemap
  -- pin primitives, F-TRACE (R103)
  | cfgOut (p : Role)
  | cfgIn (p : Role)
  | cfgInPu (p : Role)
  | drv (p : Role) (v : Level)
  | smp (p : Role)
  | dly (t : BitVec 16)
  -- bytes sent on the wire, F-BYTE (R215, R216)
  | txStart
  | txPoll
  | txPad
  | txPrime
  -- remap functions (R177, R178, R212, R163); the operand is the function's argument
  | remapNes (s : BitVec 8)
  | remapSnes (s : BitVec 12)
  | remapPsx (f : BitVec 16)
  | remapGpio (s : BitVec 8)
  -- fault codes, F-FAULT (R102)
  | faultNone
  | faultNoVariant
  | faultBadPinmap
  -- variant codes, F-VARIANT (R100)
  | variantNone
  | variantGpio
  | variantNes
  | variantSnes
  | variantPsx
deriving DecidableEq, Repr

end Sys2Proof
end

