-- ==== Sys2Proof/WellFormed.lean ====
section
/-!
DEFINITION. The mode a role has for life (spec/20_memory.md R60, R61), and which operands an operation may carry: each pin primitive
names the roles it may act on (spec/41_pin_primitives.md R140 to R144).
-/

namespace Sys2Proof

/-- The mode a role is given at `INIT`, and so its direction for life (R60, R61). -/
def Role.initMode : Role → Mode
  | .btn _ => .inpPullUp
  | .latch => .out
  | .clock => .out
  | .data => .inp
  | .att => .out
  | .clk => .out
  | .cmd => .out
  | .dat => .inp

/-- An output role: `LATCH`, `CLOCK`, `ATT`, `CLK`, `CMD`. -/
def Role.isOutput (p : Role) : Bool := p.initMode == .out

/-- An input role without a pull: `DATA`, `DAT`. -/
def Role.isPlainInput (p : Role) : Bool := p.initMode == .inp

/-- An input role with a pull-up: `BTN0` to `BTN7`. -/
def Role.isPulledInput (p : Role) : Bool := p.initMode == .inpPullUp

/-- The operands are ones the operation's rule allows: `DRV` names an output role (R143) and `SMP` an input role (R144). The `CFG`
primitives take any pin role (R140 to R142), and every other operation all its operands. -/
def Instr.wellFormed : Instr → Bool
  | .drv p _ => p.isOutput
  | .smp p => p.isPlainInput || p.isPulledInput
  | _ => true

end Sys2Proof
end

