-- ==== Sys2Proof/Decode.lean ====
section
/-!
DEFINITION. Formats and codes (spec/30_encoding.md R90 to R106): the decoder, the encoder, and the host's reading of a table
word. A format is chosen by where a code stands, never by its bits, so `decode` takes it as an argument; codes are laid out in
bytes, the low byte first (DESIGN CHOICE, log 18).
-/

namespace Sys2Proof

/-- The formats that have rows in the operation table (R90). -/
inductive Format where
  | cmd
  | phase
  | trace
  | byte
  | sr8
  | gpio
  | sr12
  | frame
  | fault
  | variant
deriving DecidableEq, Repr

/-- Why bytes are not an operation. -/
inductive DecodeError where
  /-- fewer bytes than the format has -/
  | tooShort
  /-- a bit above the format's width is set -/
  | reservedBits
  /-- a `PHASE` code outside R101 (R106 c) -/
  | reservedPhase
  /-- trace tags 6 and 7 (R103) -/
  | unusedTag
  /-- the operand byte names no role the primitive may act on (R140 to R144) -/
  | noSuchRole
  /-- the level byte is neither 0 nor 1 -/
  | noSuchLevel
  /-- a byte the block never sends (R106 e) -/
  | neverSent
  /-- `FAULT = 3` (R106 d) -/
  | reservedFault
deriving DecidableEq, Repr

/-- What decoding answers: an operation and the bytes after it, or the reason there is none. -/
inductive Decoded where
  | ok (i : Instr) (rest : List Byte)
  | bad (why : DecodeError)
deriving DecidableEq, Repr

/-! ### Operand bytes of the trace formats (log 18) -/

/-- The roles `DRV` acts on (R143). -/
def outRoles : List Role := [.latch, .clock, .att, .clk, .cmd]

/-- The input roles without a pull (R61). -/
def plainInRoles : List Role := [.data, .dat]

/-- The input roles with a pull-up (R61). -/
def btnRoles : List Role := [.btn 0, .btn 1, .btn 2, .btn 3, .btn 4, .btn 5, .btn 6, .btn 7]

/-- The roles `SMP` acts on (R144). -/
def smpRoles : List Role := btnRoles ++ plainInRoles

/-- The roles `CFG_OUT`, `CFG_IN` and `CFG_IN_PU` act on: any pin role (R140 to R142). -/
def allRoles : List Role := btnRoles ++ [.latch, .clock, .data, .att, .clk, .cmd, .dat]

/-- The byte that stands for a role in a primitive's operand list. -/
def roleByte (roles : List Role) (p : Role) : Byte := BitVec.ofNat 8 (roles.idxOf p)

/-- The role a byte stands for. -/
def roleOfByte (roles : List Role) (b : Byte) : Option Role := roles[b.toNat]?

/-- `L` is 0 and `H` is 1. -/
def levelByte : Level → Byte
  | .L => 0#8
  | .H => 1#8

/-- The level a byte stands for. -/
def levelOfByte (b : Byte) : Option Level :=
  if b = 0#8 then some .L else if b = 1#8 then some .H else none

/-! ### The tables of fixed codes -/

/-- F-PHASE, the 26 rows of R101. -/
def phaseTable : List (Byte × Instr) :=
  [(0x00#8, .idle), (0x01#8, .dispatch), (0x02#8, .respond), (0x3F#8, .halt),
   (0x08#8, .gInit), (0x09#8, .gClear), (0x0A#8, .gSmp), (0x0B#8, .gDone),
   (0x10#8, .sInit), (0x11#8, .sLatchHi), (0x12#8, .sLatchLo), (0x13#8, .sSample),
   (0x14#8, .sClkLo), (0x15#8, .sClkHi), (0x16#8, .sRemap)] ++
  [(0x20#8, .pInit), (0x21#8, .pSettle), (0x22#8, .pAttLo), (0x23#8, .pLoad),
   (0x24#8, .xCmd), (0x25#8, .xClkLo), (0x26#8, .xClkHi), (0x27#8, .xHold),
   (0x28#8, .pStore), (0x29#8, .pAttHi), (0x2A#8, .pRemap)]

/-- F-BYTE, the four bytes the block sends (R106 e, R215, R216). -/
def byteTable : List (Byte × Instr) :=
  [(0x01#8, .txStart), (0x42#8, .txPoll), (0xFF#8, .txPad), (0x00#8, .txPrime)]

/-- F-FAULT (R102). -/
def faultTable : List (Byte × Instr) :=
  [(0#8, .faultNone), (1#8, .faultNoVariant), (2#8, .faultBadPinmap)]

/-- F-VARIANT (R100); codes 5 to 7 are treated as `NONE`. -/
def variantTable : List (Byte × Instr) :=
  [(0#8, .variantNone), (1#8, .variantGpio), (2#8, .variantNes), (3#8, .variantSnes),
   (4#8, .variantPsx), (5#8, .variantNone), (6#8, .variantNone), (7#8, .variantNone)]

/-! ### The decoder -/

/-- One byte looked up in a table of fixed codes; `width` is the format's width in bits, and a code of that width that is no row
is refused under the name `why`. -/
def decodeRow (table : List (Byte × Instr)) (width : Nat) (why : DecodeError) : List Byte → Decoded
  | [] => .bad .tooShort
  | b :: rest =>
    match table.lookup b with
    | some i => .ok i rest
    | none => if b.toNat < 2 ^ width then .bad why else .bad .reservedBits

/-- The host command of the code `op` and the argument `arg` (R99). -/
def cmdInstr (op : BitVec 2) (arg : Byte) : Instr :=
  if op = 0#2 then .init arg
  else if op = 1#2 then .read arg
  else if op = 2#2 then .ispressed arg
  else .cmdReserved arg

/-- F-CMD, `cmd_op[1:0] ∥ cmd_arg[7:0]` (R99). -/
def decodeCmd : List Byte → Decoded
  | a :: o :: rest => if o.toNat < 4 then .ok (cmdInstr (o.setWidth 2) a) rest else .bad .reservedBits
  | _ => .bad .tooShort

/-- A primitive with one role operand. -/
def decodeRole (roles : List Role) (mk : Role → Instr) : List Byte → Decoded
  | r :: rest =>
    match roleOfByte roles r with
    | some p => .ok (mk p) rest
    | none => .bad .noSuchRole
  | [] => .bad .tooShort

/-- The operands of `DRV`: a role and a level (R143). -/
def decodeDrv : List Byte → Decoded
  | r :: v :: rest =>
    match roleOfByte outRoles r, levelOfByte v with
    | some p, some l => .ok (.drv p l) rest
    | none, _ => .bad .noSuchRole
    | some _, none => .bad .noSuchLevel
  | _ => .bad .tooShort

/-- The operand of `DLY`: a time in microseconds (R145). -/
def decodeDly : List Byte → Decoded
  | lo :: hi :: rest => .ok (.dly (hi ++ lo)) rest
  | _ => .bad .tooShort

/-- F-TRACE, tags of R103, each followed by its operands. -/
def decodeTrace : List Byte → Decoded
  | [] => .bad .tooShort
  | t :: bs =>
    if t = 0#8 then decodeRole allRoles .cfgOut bs
    else if t = 1#8 then decodeRole allRoles .cfgIn bs
    else if t = 2#8 then decodeRole allRoles .cfgInPu bs
    else if t = 3#8 then decodeDrv bs
    else if t = 4#8 then decodeRole smpRoles .smp bs
    else if t = 5#8 then decodeDly bs
    else if t.toNat < 8 then .bad .unusedTag
    else .bad .reservedBits

/-- An 8-bit operand and nothing else: F-SR8 (R93), F-GPIO (R92). -/
def decodeOperand8 (mk : BitVec 8 → Instr) : List Byte → Decoded
  | b :: rest => .ok (mk b) rest
  | [] => .bad .tooShort

/-- F-SR12 (R94): twelve samples. -/
def decodeSr12 : List Byte → Decoded
  | lo :: hi :: rest => if hi.toNat < 16 then .ok (.remapSnes (hi.setWidth 4 ++ lo)) rest else .bad .reservedBits
  | _ => .bad .tooShort

/-- The 16-bit field of F-FRAME (R97). -/
def decodeFrame : List Byte → Decoded
  | lo :: hi :: rest => .ok (.remapPsx (hi ++ lo)) rest
  | _ => .bad .tooShort

/-- The operation that bytes stand for where a code of format `f` stands (R90, R107). -/
def decode (f : Format) (bs : List Byte) : Decoded :=
  match f with
  | .cmd => decodeCmd bs
  | .phase => decodeRow phaseTable 6 .reservedPhase bs
  | .trace => decodeTrace bs
  | .byte => decodeRow byteTable 8 .neverSent bs
  | .sr8 => decodeOperand8 .remapNes bs
  | .gpio => decodeOperand8 .remapGpio bs
  | .sr12 => decodeSr12 bs
  | .frame => decodeFrame bs
  | .fault => decodeRow faultTable 2 .reservedFault bs
  | .variant => decodeRow variantTable 3 .reservedBits bs

/-! ### The encoder -/

/-- The format a row of the table belongs to. -/
def formatOf : Instr → Format
  | .init _ | .read _ | .ispressed _ | .cmdReserved _ => .cmd
  | .idle | .dispatch | .respond | .halt => .phase
  | .gInit | .gClear | .gSmp | .gDone => .phase
  | .sInit | .sLatchHi | .sLatchLo | .sSample | .sClkLo | .sClkHi | .sRemap => .phase
  | .pInit | .pSettle | .pAttLo | .pLoad | .pStore | .pAttHi | .pRemap => .phase
  | .xCmd | .xClkLo | .xClkHi | .xHold => .phase
  | .cfgOut _ | .cfgIn _ | .cfgInPu _ | .drv _ _ | .smp _ | .dly _ => .trace
  | .txStart | .txPoll | .txPad | .txPrime => .byte
  | .remapNes _ => .sr8
  | .remapSnes _ => .sr12
  | .remapPsx _ => .frame
  | .remapGpio _ => .gpio
  | .faultNone | .faultNoVariant | .faultBadPinmap => .fault
  | .variantNone | .variantGpio | .variantNes | .variantSnes | .variantPsx => .variant

/-- The bytes of an operation, from the tables of R99 to R103, R105. -/
def encode : Instr → List Byte
  | .init a => [a, 0#8]
  | .read a => [a, 1#8]
  | .ispressed a => [a, 2#8]
  | .cmdReserved a => [a, 3#8]
  | .idle => [0x00#8]
  | .dispatch => [0x01#8]
  | .respond => [0x02#8]
  | .halt => [0x3F#8]
  | .gInit => [0x08#8]
  | .gClear => [0x09#8]
  | .gSmp => [0x0A#8]
  | .gDone => [0x0B#8]
  | .sInit => [0x10#8]
  | .sLatchHi => [0x11#8]
  | .sLatchLo => [0x12#8]
  | .sSample => [0x13#8]
  | .sClkLo => [0x14#8]
  | .sClkHi => [0x15#8]
  | .sRemap => [0x16#8]
  | .pInit => [0x20#8]
  | .pSettle => [0x21#8]
  | .pAttLo => [0x22#8]
  | .pLoad => [0x23#8]
  | .xCmd => [0x24#8]
  | .xClkLo => [0x25#8]
  | .xClkHi => [0x26#8]
  | .xHold => [0x27#8]
  | .pStore => [0x28#8]
  | .pAttHi => [0x29#8]
  | .pRemap => [0x2A#8]
  | .cfgOut p => [0#8, roleByte allRoles p]
  | .cfgIn p => [1#8, roleByte allRoles p]
  | .cfgInPu p => [2#8, roleByte allRoles p]
  | .drv p v => [3#8, roleByte outRoles p, levelByte v]
  | .smp p => [4#8, roleByte smpRoles p]
  | .dly t => [5#8, t.setWidth 8, (t >>> 8).setWidth 8]
  | .txStart => [0x01#8]
  | .txPoll => [0x42#8]
  | .txPad => [0xFF#8]
  | .txPrime => [0x00#8]
  | .remapNes s => [s]
  | .remapSnes s => [s.setWidth 8, (s >>> 8).setWidth 8]
  | .remapPsx f => [f.setWidth 8, (f >>> 8).setWidth 8]
  | .remapGpio s => [s]
  | .faultNone => [0#8]
  | .faultNoVariant => [1#8]
  | .faultBadPinmap => [2#8]
  | .variantNone => [0#8]
  | .variantGpio => [1#8]
  | .variantNes => [2#8]
  | .variantSnes => [3#8]
  | .variantPsx => [4#8]

/-! ### The host's reading of a word of the operation table -/

/-- The low `n` bytes of a number, the lowest first. -/
def lowBytes : Nat → Nat → List Byte
  | 0, _ => []
  | n + 1, w => BitVec.ofNat 8 w :: lowBytes n (w / 256)

/-- The formats a word of so many bits is read in, the first that takes it winning: a word does not say its format, and the
codes of different formats overlap (DESIGN CHOICE, log 19). -/
def formatsOfWidth (nbits : Nat) : List Format :=
  if nbits = 8 then [.phase, .trace, .byte, .sr8]
  else if nbits = 16 then [.cmd, .sr12, .frame]
  else if nbits = 10 then [.cmd]
  else if nbits = 6 then [.phase]
  else if nbits = 3 then [.trace]
  else if nbits = 2 then [.fault]
  else if nbits = 12 then [.sr12]
  else []

/-- The first of the formats in which the bytes are an operation. -/
def decodeFirst (bs : List Byte) : List Format → Option Instr
  | [] => none
  | f :: fs =>
    match decode f bs with
    | .ok i _ => some i
    | .bad _ => decodeFirst bs fs

/-- The operation this decoder reads from the table's bits `w`, with operand bytes of zeros after them. -/
def decodeTableWord (nbits w : Nat) : Option Instr :=
  if w < 2 ^ nbits then
    decodeFirst (lowBytes ((nbits + 7) / 8) w ++ [0#8, 0#8, 0#8]) (formatsOfWidth nbits)
  else none

end Sys2Proof
end

