-- ==== Sys2Proof/Config.lean ====
section
/-!
DEFINITION. The free values: what the spec leaves open and no proof may know. Each is an opaque constant with no body. The
parameters of an instance (VARIANT, PINMAP, timing) are plain data in `State.cfg`, because a model takes them as arguments
(spec/00_scope.md R8, R9).
-/

namespace Sys2Proof

/-- What an external source does to a line at a sample the environment's list does not answer: it drives a level, or nothing
drives the line (`none`). It may depend on the whole earlier trace and on the counter, that is on the time (R74, log 4). -/
opaque Config.envDrive : Nat → List Stamped → Role → Option Level

/-- What an undriven line without a pull samples: any level, sample by sample (R76, log 4). -/
opaque Config.floatLevel : Nat → List Stamped → Role → Level

/-- The time before a pin event that no `DLY` asks for; used only up to `Config.tPhaseMax` (R146, log 5). -/
opaque Config.slack : Nat → Nat

/-- `T_PHASE_MAX`, open and finite (R10, R146). -/
opaque Config.tPhaseMax : Nat

/-- How much longer than its minimum a `DLY` lasts: "no upper bound" (R145, log 5). -/
opaque Config.overHold : Nat → Nat

end Sys2Proof
end

