-- ==== Sys2Proof/Machine/State.lean ====
section
/-!
DEFINITION. The state of the block and its value right after reset (spec/10_state.md R20 to R47, spec/70_reset_and_hazards.md
R280), and the reasons a step can stop.
-/

namespace Sys2Proof.Machine

/-- `PHASE` (R28, R101): the phase the sequencer executes at its next step. The 38 codes that no rule produces have no
constructor (R28, log 25). -/
inductive Phase where
  | idle
  | dispatch
  | respond
  | halt
  | gInit
  | gClear
  | gSmp
  | gDone
  | sInit
  | sLatchHi
  | sLatchLo
  | sSample
  | sClkLo
  | sClkHi
  | sRemap
  | pInit
  | pSettle
  | pAttLo
  | pLoad
  | xCmd
  | xClkLo
  | xClkHi
  | xHold
  | pStore
  | pAttHi
  | pRemap
deriving DecidableEq, Repr

/-- `OP` (R27): the command being executed; the reserved code is never accepted (R106 a), so it has no constructor. -/
inductive HostOp where
  | init
  | read
  | ispressed
deriving DecidableEq, Repr

/-- `FAULT` (R34, R102): no error, `NO_VARIANT`, `BAD_PINMAP`; code 3 is never produced (R106 d). -/
inductive FaultCode where
  | ok
  | noVariant
  | badPinmap
deriving DecidableEq, Repr

/-- What `VARIANT` selects (R8, R100); `unselected` is `NONE`. -/
inductive Variant where
  | unselected
  | gpio
  | nes
  | snes
  | psx
deriving DecidableEq, Repr

/-- The minimum times of R9, in microseconds. DESIGN CHOICE: any number may stand here, below the document's literal too, which the spec
admits for no instance and gives no effect (R9, R180, R284); the block then runs with the short hold (log 29). -/
structure Timing where
  tLatch : Nat
  tSettle : Nat
  tClkLo : Nat
  tClkHi : Nat
  tAtt : Nat
  tBit : Nat
  tXclkLo : Nat
deriving DecidableEq, Repr

/-- The parameters of an instance, fixed before reset is released (R8, R9, R37, R38): the `VARIANT` code, the line each role is
bound to, the minimum times, and what the supplier's predicate `PinmapValid` is on (VARIANT, PINMAP), as the list of the pairs it
accepts (R8, R253, log 21). -/
structure Params where
  variant : BitVec 3
  pinmap : RoleMap (Option Nat)
  accepted : List (Variant × RoleMap (Option Nat))
  timing : Timing
deriving DecidableEq, Repr

/-- The inputs of the host port (R40), as the host holds them now. -/
structure Port where
  rst : Bool
  cmdValid : Bool
  cmdOp : BitVec 2
  cmdArg : Byte
deriving DecidableEq, Repr

/-- The model's own fields: the environment's coming answers, one for each `SMP`, in order (`none`: nothing drives the line;
log 4), the time and the counter the free values are read at (log 5), and the event trace of R16, oldest first (log 6). -/
structure World where
  env : List (Option Level)
  now : Nat
  tick : Nat
  trace : List Stamped
deriving DecidableEq, Repr

/-- Everything the spec gives the block (R46: "rules R20 to R43 list everything"), the inputs of its ports, the configuration of
the instance, and the model's own fields. -/
structure State where
  cfg : Params
  /-- Reset has been released at some time: from then on the configuration is immutable for good (R8, R37, R253, R256, log 17). -/
  released : Bool
  phase : Phase
  scr : BitVec 12
  tx : Byte
  rx : Byte
  rxbuf : Vector Byte 5
  field : BitVec 16
  mask : Byte
  bool : Bool
  op : HostOp
  arg : Byte
  bitcnt : BitVec 4
  bytecnt : BitVec 3
  framecnt : BitVec 2
  prime : Bool
  inited : Bool
  fault : FaultCode
  mode : RoleMap Mode
  /-- The level the block drives on each role; `none`: the line is not driven (R43, log 3). -/
  outlvl : RoleMap (Option Level)
  port : Port
  rspValid : Bool
  world : World
deriving DecidableEq, Repr

/-- Model faults, all safe: no state a run reaches meets one (log 12). -/
inductive Fault where
  /-- raised by a pin primitive on a role that the active variant does not have (R60); safe -/
  | noSuchRole (p : Role)
  /-- raised by `DRV` when `MODE[p]` is not `OUT` (R143); safe -/
  | driveRequiresOut (p : Role)
  /-- raised by `SMP` when `MODE[p]` is neither `IN` nor `IN_PU` (R144); safe -/
  | sampleRequiresIn (p : Role)
  /-- raised by G_SMP when `BITCNT` names no line `BTN<BITCNT>` (R29, R162); safe -/
  | noSuchButton
  /-- raised by S_SAMPLE when `BITCNT` names no bit of `SCR` (R20, R29); safe -/
  | noSuchSampleBit
  /-- raised by X_CMD and X_CLK_HI when `BITCNT` names no bit of `TX` or `RX` (R29, R205, R207); safe -/
  | noSuchByteBit
  /-- raised by P_LOAD and P_STORE when `BYTECNT` names no byte of the frame (R30, R204, R209); safe -/
  | noSuchFrameByte
deriving DecidableEq, Repr

/-- Why an operation is refused: the command is not taken and nothing changes (R13, R14, R123). -/
inductive Refusal where
  /-- raised by an arm of `exec` whose meaning is not written; safe -/
  | notModelled (mnemonic : String)
  /-- raised by READ and ISPRESSED while `INITED = 0` (R123); safe -/
  | pollBeforeInit
  /-- raised by INIT while `INITED = 1` (R123); safe -/
  | initTwice
  /-- raised by CMD_RESERVED, and by IDLE when the port presents it (R106 a, R123); safe -/
  | reservedCommand
  /-- raised by a command while `cmd_ready = 0`: it is not seen (R40, R123, R286); safe -/
  | portNotReady
  /-- raised by VARIANT_NONE to VARIANT_PSX once reset has been released: `VARIANT` is immutable (R8, R37, R256, log 17); safe -/
  | configurationFixed
deriving DecidableEq, Repr

/-- The document's literals (R9) and the default of `T_XCLK_LO` (R206). -/
def Timing.literals : Timing :=
  { tLatch := 12, tSettle := 6, tClkLo := 6, tClkHi := 6, tAtt := 2, tBit := 10, tXclkLo := 0 }

/-- An instance nobody has configured: no variant selected, no role bound (log 1). -/
def Params.unconfigured : Params :=
  { variant := 0#3, pinmap := RoleMap.const none, accepted := [], timing := Timing.literals }

/-- The state right after reset (R47, R280) of the instance with the parameters `c`; the registers R47 leaves unwritten hold 0
(DESIGN CHOICE, log 2). -/
def State.resetWith (c : Params) : State :=
  { cfg := c
    released := true
    phase := .idle
    scr := 0#12
    tx := 0#8
    rx := 0#8
    rxbuf := Vector.replicate 5 0#8
    field := 0#16
    mask := 0#8
    bool := false
    op := .init
    arg := 0#8
    bitcnt := 0#4
    bytecnt := 0#3
    framecnt := 0#2
    prime := false
    inited := false
    fault := .ok
    mode := RoleMap.const .unconfigured
    outlvl := RoleMap.const none
    port := { rst := false, cmdValid := false, cmdOp := 0#2, cmdArg := 0#8 }
    rspValid := false
    world := { env := [], now := 0, tick := 0, trace := [] } }

/-- The state of the instance while `rst` is asserted for the first time: R47's values too (R280), the configuration still open (R282
(1)). -/
def State.powerUp (c : Params) : State :=
  { State.resetWith c with
    released := false
    port := { (State.resetWith c).port with rst := true } }

/-- The state right after reset of an instance nobody has configured (log 1). -/
def State.reset : State := State.resetWith Params.unconfigured

end Sys2Proof.Machine
end

