-- ==== Sys2Proof/Machine/Operands.lean ====
section
/-!
DEFINITION. Where operands come from and how values are assembled from bits: the roles of a variant, the line a counter names,
the byte a frame sends, the remap functions (spec/20_memory.md R60, R61; spec/30_encoding.md R91 to R104; spec/43_shift_register.md
R177, R178; spec/44_serial_frame.md R212, R216).
-/

namespace Sys2Proof.Machine

/-! ### Codes -/

/-- F-VARIANT (R100): codes 5 to 7 are treated as `NONE`. -/
def Variant.ofCode (c : BitVec 3) : Variant :=
  if c = 1#3 then .gpio else if c = 2#3 then .nes else if c = 3#3 then .snes else if c = 4#3 then .psx else .unselected

/-- The code of a variant (R100). -/
def Variant.code : Variant → BitVec 3
  | .unselected => 0#3
  | .gpio => 1#3
  | .nes => 2#3
  | .snes => 3#3
  | .psx => 4#3

/-- The variant the instance is configured for (R37). -/
def variantOf (s : State) : Variant := Variant.ofCode s.cfg.variant

/-- `cmd_op` (R99); `0b11` is reserved. -/
def HostOp.ofCode (c : BitVec 2) : Option HostOp :=
  if c = 0#2 then some .init else if c = 1#2 then some .read else if c = 2#2 then some .ispressed else none

/-- The code of a command (R99). -/
def HostOp.code : HostOp → BitVec 2
  | .init => 0#2
  | .read => 1#2
  | .ispressed => 2#2

/-- F-FAULT (R102, R251). -/
def FaultCode.code : FaultCode → BitVec 2
  | .ok => 0#2
  | .noVariant => 1#2
  | .badPinmap => 2#2

/-- Trace tags (R103). -/
def eventTag : Event → BitVec 3
  | .cfgOut _ => 0#3
  | .cfgIn _ => 1#3
  | .cfgInPu _ => 2#3
  | .drv _ _ => 3#3
  | .smp _ _ => 4#3
  | .dly _ => 5#3

/-! ### The pin space -/

/-- The roles of a variant (R60, R61); an instance with no variant selected has none. -/
def Variant.roles : Variant → List Role
  | .unselected => []
  | .gpio => [.btn 0, .btn 1, .btn 2, .btn 3, .btn 4, .btn 5, .btn 6, .btn 7]
  | .nes => [.latch, .clock, .data]
  | .snes => [.latch, .clock, .data]
  | .psx => [.att, .clk, .cmd, .dat]

/-- The role is in the pin space of this instance (R60). -/
def hasRole (s : State) (p : Role) : Bool := decide (p ∈ (variantOf s).roles)

/-- Every role of the active variant is bound to a line: the one case in which `PinmapValid` must be false (R253). -/
def allRolesBound (c : Params) : Bool := (Variant.ofCode c.variant).roles.all fun p => (c.pinmap.get p).isSome

/-- The supplier's verdict on the configuration's VARIANT and PINMAP (R253). -/
def supplierAccepts (c : Params) : Bool := decide ((Variant.ofCode c.variant, c.pinmap) ∈ c.accepted)

/-- `PinmapValid(VARIANT, PINMAP)` (R8, R253): the supplier's verdict, and the mandatory condition (log 21). -/
def pinmapValid (c : Params) : Bool := supplierAccepts c && allRolesBound c

/-- `N`, the bits of a shift frame: 8 for NES, 12 for SNES (R8). -/
def frameBits (s : State) : Nat := if variantOf s = .nes then 8 else 12

/-- The line `BTN<BITCNT>` of G_SMP, the only computed address of the block (R62). -/
def buttonAt (k : BitVec 4) : Option Role := if h : k.toNat < 8 then some (.btn ⟨k.toNat, h⟩) else none

/-! ### Assembly of values from bits (R104) -/

/-- `v[k]` set to 1 when the sampled level is `L`, unchanged when it is `H` (R162, R173, R207). -/
def setOnLow {w : Nat} (l : Level) (v : BitVec w) (k : Nat) : BitVec w :=
  if bit l then v ||| BitVec.twoPow w k else v

/-- The bytes of a poll frame in order: start marker, poll command, three pads (R96, R216). -/
def hdr : List Byte := [0x01#8, 0x42#8, 0xFF#8, 0xFF#8, 0xFF#8]

/-- The priming byte (R215). -/
def primeByte : Byte := 0x00#8

/-- `N_PRIME`: how many priming frames (R10, R215). -/
def nPrime : Nat := 2

/-- `NB`, the bytes of a frame: `N_PRIME_BYTES` = 1 in a priming frame, else 5 (R10, R69, R209). -/
def frameBytes (prime : Bool) : Nat := if prime then 1 else 5

/-- The byte P_LOAD sends next (R204). -/
def txByte (s : State) : Option Byte := if s.prime then some primeByte else hdr[s.bytecnt.toNat]?

/-- `FIELD`: low byte received first (R67, R211). -/
def fieldOf (rxbuf : Vector Byte 5) : BitVec 16 := rxbuf[4] ++ rxbuf[3]

/-! ### The remap functions -/

/-- `REMAP_NES(s) = s[7:0]` (R177). -/
def remapNesFn (s : BitVec 12) : Byte := s.extractLsb' 0 8

/-- `REMAP_GPIO`: no remapping, each line is one bit (R92, R163). -/
def remapGpioFn (s : BitVec 12) : Byte := s.extractLsb' 0 8

/-- A ButtonMask from its eight bits, bit 7 first: Right, Left, Down, Up, Start, Select, B, A (R91). -/
def maskOf (right left down up start select b a : Bool) : Byte :=
  BitVec.ofBool right ++ BitVec.ofBool left ++ BitVec.ofBool down ++ BitVec.ofBool up ++
    BitVec.ofBool start ++ BitVec.ofBool select ++ BitVec.ofBool b ++ BitVec.ofBool a

/-- `REMAP_SNES` (R178): bits 2 to 7 pass through; extra A and extra R fold into A, extra B and extra L into B. -/
def remapSnesFn (s : BitVec 12) : Byte :=
  maskOf s[7] s[6] s[5] s[4] s[3] s[2] (s[1] || s[9] || s[10]) (s[0] || s[8] || s[11])

/-- `REMAP_PSX` (R212), the field's layout being that of R97. -/
def remapPsxFn (f : BitVec 16) : Byte :=
  maskOf f[5] f[7] f[6] f[4] f[3] f[0]
    (f[10] || f[8] || f[1] || f[15] || f[12])
    (f[11] || f[9] || f[2] || f[14] || f[13])

end Sys2Proof.Machine
end

