-- ==== Sys2Proof/Machine/Flags.lean ====
section
/-!
DEFINITION. Conditions and outputs computed from the registers: the block has no arithmetic flags (spec/10_state.md R35, R36,
R39, R40; spec/40_host_operations.md R122, R125).
-/

namespace Sys2Proof.Machine

/-- `BUSY`, and the status output `st_busy` (R35, R39). -/
def busy (s : State) : Bool := s.phase != .idle

/-- The status output `st_inited` (R39). -/
def stInited (s : State) : Bool := s.inited

/-- The status output `st_fault` (R39). -/
def stFault (s : State) : BitVec 2 := s.fault.code

/-- `cmd_ready`: 1 exactly when `PHASE = IDLE` and `FAULT = 0` (R40). -/
def cmdReady (s : State) : Bool := s.phase == .idle && s.fault == .ok

/-- `Acceptable(op)` (R122); the reserved code never is. -/
def acceptable (op : HostOp) (s : State) : Bool :=
  match op with
  | .init => !s.inited
  | .read => s.inited
  | .ispressed => s.inited

/-- The value RESPOND gives `BOOL` for ISPRESSED: `(MASK & ARG) != 0` (R26, R125). -/
def anyPressed (mask arg : Byte) : Bool := mask &&& arg != 0#8

/-- `rsp_op`, at all times a copy of `OP` (R40); `rsp_valid` says when it is a response. -/
def rspOp (s : State) : BitVec 2 := s.op.code

/-- `rsp_mask`, a copy of the output latch `MASK`, meaningful when `rsp_op = READ` (R25, R40); no value where it is not meaningful
(R125 for INIT; DESIGN CHOICE for ISPRESSED, log 11). -/
def rspMask (s : State) : Option Byte := if rspOp s = HostOp.read.code then some s.mask else none

/-- `rsp_bool`, a copy of `BOOL`, meaningful when `rsp_op = ISPRESSED` (R26, R40); no value where it is not meaningful (R125 for INIT;
DESIGN CHOICE for READ, log 11). -/
def rspBool (s : State) : Option Bool := if rspOp s = HostOp.ispressed.code then some s.bool else none

end Sys2Proof.Machine
end

