-- ==== Sys2Proof/Machine/Ops.lean ====
section
/-!
DEFINITION. The operations every meaning is made of: pin events and time, the pin primitives, taking and refusing a command,
raising the configuration error, reset (spec/41_pin_primitives.md; spec/40_host_operations.md R122, R123;
spec/60_exceptions.md R254; spec/70_reset_and_hazards.md R280).
-/

namespace Sys2Proof.Machine

/-- The outcome of a step (R14). -/
abbrev Out := Host.Outcome State Fault Refusal

/-- Go on with the next state; a stop stays a stop. -/
def andThen (o : Out) (f : State → Out) : Out :=
  match o with
  | .next s => f s
  | .fault r => .fault r
  | .refused r => .refused r

/-- `PHASE <- q`: every phase rule ends so (R28). -/
def goto (q : Phase) (s : State) : Out := .next { s with phase := q }

/-! ### Events and time (R16, R70, R145, R146; log 5, log 6) -/

/-- When the next pin event begins: not before now, and at most `T_PHASE_MAX` later (R146). DESIGN CHOICE: waiting in IDLE takes no model
time, so this bound holds for the first event of a command too, although the time between two commands is unconstrained (R283, U22,
log 5). -/
def World.nextTime (w : World) : Nat := w.now + min (Config.slack w.tick) Config.tPhaseMax

/-- One pin event happens and is the newest of the trace. -/
def World.emit (e : Event) (w : World) : World :=
  { w with now := w.nextTime, tick := w.tick + 1, trace := w.trace ++ [⟨w.nextTime, e⟩] }

/-- `DLY(t)` (R145): an event, and at least `t` microseconds. A hold of 0 is no event: R206 says so of `T_XCLK_LO`, whose minimum is 0;
for any other parameter at 0, which the spec admits for no instance, it is the model's DESIGN CHOICE (log 29). -/
def World.delay (t : Nat) (w : World) : World :=
  if t = 0 then w
  else { w.emit (.dly t) with now := w.nextTime + t + Config.overHold w.tick }

/-- What an external source does to line `p` at the next sample: the environment's next answer, else a free one (R74, log 4). -/
def World.driven (p : Role) (w : World) : Option Level :=
  match w.env with
  | a :: _ => a
  | [] => Config.envDrive w.tick w.trace p

/-- One sample is taken: the event happens and the environment's answer is used up (R64). -/
def World.sampled (p : Role) (l : Level) (w : World) : World :=
  { w.emit (.smp p l) with env := w.env.tail }

/-- One pin event of the block. -/
def emit (e : Event) (s : State) : State := { s with world := s.world.emit e }

/-- `DLY(t)` (R145). -/
def delay (t : Nat) (s : State) : State := { s with world := s.world.delay t }

/-! ### Pin primitives -/

/-- `CFG_OUT(p)`, `CFG_IN(p)`, `CFG_IN_PU(p)` (R140 to R142): `MODE[p] <- m`, for any pin role of the instance (R60; log 12 for the
others, log 28 for a mode of the other direction, which no phase gives). -/
def configure (p : Role) (m : Mode) (e : Event) (s : State) : Out :=
  if hasRole s p then .next (emit e { s with mode := s.mode.put p m }) else .fault (.noSuchRole p)

/-- `DRV(p, v)` (R143): require `MODE[p] = OUT`; `OUTLVL[p] <- v`. -/
def drive (p : Role) (v : Level) (s : State) : Out :=
  if hasRole s p then
    if s.mode.get p = .out then .next (emit (.drv p v) { s with outlvl := s.outlvl.put p (some v) })
    else .fault (.driveRequiresOut p)
  else .fault (.noSuchRole p)

/-- The level the environment gives for `p` now (R74): the driven level; `H` on an undriven pulled-up line (R75); any level on an
undriven line without a pull (R76). -/
def levelAt (p : Role) (s : State) : Level :=
  match s.world.driven p with
  | some l => l
  | none => if s.mode.get p = .inpPullUp then .H else Config.floatLevel s.world.tick s.world.trace p

/-- `MODE[p]` is one `SMP` may be used in (R144). -/
def canSample (p : Role) (s : State) : Bool := s.mode.get p == .inp || s.mode.get p == .inpPullUp

/-- `SMP(p)` (R144): one observation of one line; the caller goes on with the level. -/
def sample (p : Role) (s : State) (k : Level → State → Out) : Out :=
  if hasRole s p then
    if canSample p s then k (levelAt p s) { s with world := s.world.sampled p (levelAt p s) }
    else .fault (.sampleRequiresIn p)
  else .fault (.noSuchRole p)

/-! ### The command port -/

/-- The reason a command that is not acceptable is refused (R123). -/
def refusalOf : HostOp → Refusal
  | .init => .initTwice
  | .read => .pollBeforeInit
  | .ispressed => .pollBeforeInit

/-- IDLE's acceptance of a command (R122): latched into `OP` and `ARG`, and withdrawn by the host (R286, log 7); refused when it is
not acceptable (R123); not seen while `cmd_ready = 0` (R40). -/
def acceptCommand (op : HostOp) (arg : Byte) (s : State) : Out :=
  if cmdReady s then
    if acceptable op s then
      .next { s with op := op, arg := arg, phase := .dispatch, port := { s.port with cmdValid := false } }
    else .refused (refusalOf op)
  else .refused .portNotReady

/-- The host's move of presenting a command (R121). It has no such move while `cmd_ready = 0`: that is its duty, so no command waits
in the port for the next IDLE (R286, log 7). -/
def State.present (op : BitVec 2) (arg : Byte) (s : State) : State :=
  if cmdReady s then { s with port := { s.port with cmdValid := true, cmdOp := op, cmdArg := arg } } else s

/-! ### The configuration error and reset -/

/-- `raise ConfigError(code)` (R254): taken, nothing saved. There is no return from it (R256): only reset leaves HALT. -/
def raiseConfigError (code : FaultCode) (s : State) : Out := .next { s with fault := code, phase := .halt }

/-- Reset (R280): every register and pin as R47 says; the configuration is not changed; the port inputs are the host's, and the
environment, the time and the trace go on (log 22). -/
def applyReset (s : State) : State :=
  { State.resetWith s.cfg with released := s.released, port := s.port, world := s.world }

/-- The host asserts or releases `rst` (R40). While it is asserted and at the moment it is released the state is that after reset: a
command in progress is abandoned at once and its lines are released (R280). That reset has been released is never forgotten (R8,
log 17). -/
def State.setRst (b : Bool) (s : State) : State :=
  let t := if s.port.rst || b then applyReset s else s
  { t with released := s.released || !s.port.rst || !b, port := { s.port with rst := b } }

/-- `rsp_valid` is 1 for the phase RESPOND and 0 otherwise: every step begins by dropping it (R125, log 11). -/
def dropResponse (s : State) : State := { s with rspValid := false }

end Sys2Proof.Machine
end

