-- ==== Sys2Proof/Machine/Code.lean ====
section
/-!
DEFINITION. The rows of the table that are codes: what a configuration check does when it finds a fault code
(spec/60_exceptions.md R251, R254), and the selection of a variant before reset is released (spec/00_scope.md R8,
spec/10_state.md R37, spec/70_reset_and_hazards.md R282).
-/

namespace Sys2Proof.Machine

/-- FAULT_NONE (R251): no error, so nothing is raised; `FAULT` is sticky and is not cleared (R34, log 16). -/
def execFaultNone (s : State) : Out := .next s

/-- FAULT_NO_VARIANT (R251): `raise ConfigError(NO_VARIANT)`. -/
def execFaultNoVariant (s : State) : Out := raiseConfigError .noVariant s

/-- FAULT_BAD_PINMAP (R251): `raise ConfigError(BAD_PINMAP)`. -/
def execFaultBadPinmap (s : State) : Out := raiseConfigError .badPinmap s

/-- The selection of a variant: possible while the first reset is still asserted, and never again (R8, R37, R282; R256 for a later
reset; log 17). `PinmapValid` is judged of the new VARIANT (R253). -/
def selectVariant (v : Variant) (s : State) : Out :=
  if s.port.rst && !s.released then .next { s with cfg := { s.cfg with variant := v.code } } else .refused .configurationFixed

/-- VARIANT_NONE (R100). -/
def execVariantNone (s : State) : Out := selectVariant .unselected s

/-- VARIANT_GPIO (R100). -/
def execVariantGpio (s : State) : Out := selectVariant .gpio s

/-- VARIANT_NES (R100). -/
def execVariantNes (s : State) : Out := selectVariant .nes s

/-- VARIANT_SNES (R100). -/
def execVariantSnes (s : State) : Out := selectVariant .snes s

/-- VARIANT_PSX (R100). -/
def execVariantPsx (s : State) : Out := selectVariant .psx s

end Sys2Proof.Machine
end

