-- ==== Sys2Proof/Machine/Common.lean ====
section
/-!
DEFINITION. The host commands and the phases every variant shares (spec/40_host_operations.md).
-/

namespace Sys2Proof.Machine

/-! ### Host commands: what the port does with them (R122, R127 to R129). The phases below and those of the readers carry an
accepted command out, one step each (D3). -/

/-- INIT (R127), accepted while `INITED = 0`; `cmd_arg` is latched and ignored. -/
def execInit (arg : Byte) (s : State) : Out := acceptCommand .init arg s

/-- READ (R128), accepted while `INITED = 1`; `cmd_arg` is latched and ignored. -/
def execRead (arg : Byte) (s : State) : Out := acceptCommand .read arg s

/-- ISPRESSED b (R129), accepted while `INITED = 1`; `b` is latched into `ARG`. -/
def execIspressed (arg : Byte) (s : State) : Out := acceptCommand .ispressed arg s

/-- The reserved command code: refused, or not seen while `cmd_ready = 0` (R106 a, R123). -/
def execCmdReserved (_arg : Byte) (s : State) : Out :=
  if cmdReady s then .refused .reservedCommand else .refused .portNotReady

/-! ### Common phases -/

/-- IDLE (R122): take or refuse the command the port presents, else wait. -/
def execIdle (s : State) : Out :=
  if s.port.cmdValid && cmdReady s then
    match HostOp.ofCode s.port.cmdOp with
    | some op => acceptCommand op s.port.cmdArg s
    | none => .refused .reservedCommand
  else goto .idle s

/-- The init phase of a variant (R124, R127). -/
def initPhase : Variant → Phase
  | .gpio => .gInit
  | .nes => .sInit
  | .snes => .sInit
  | _ => .pInit

/-- The first poll phase of a variant (R124, R128). -/
def pollPhase : Variant → Phase
  | .gpio => .gClear
  | .nes => .sLatchHi
  | .snes => .sLatchHi
  | _ => .pSettle

/-- DISPATCH (R124): on INIT the check of the configuration, `NO_VARIANT` first (R255), then the init phase of the variant; on a
poll the first poll phase. -/
def execDispatch (s : State) : Out :=
  match s.op with
  | .init =>
    if variantOf s = .unselected then raiseConfigError .noVariant s
    else if !pinmapValid s.cfg then raiseConfigError .badPinmap s
    else goto (initPhase (variantOf s)) s
  | .read => goto (pollPhase (variantOf s)) s
  | .ispressed => goto (pollPhase (variantOf s)) s

/-- RESPOND (R125). -/
def execRespond (s : State) : Out :=
  goto .idle
    { s with
      inited := if s.op = .init then true else s.inited
      bool := if s.op = .ispressed then anyPressed s.mask s.arg else s.bool
      rspValid := true }

/-- HALT (R126): for ever; `rsp_valid = 0`. Only reset leaves it (log 9). -/
def execHalt (s : State) : Out := goto .halt { s with rspValid := false }

end Sys2Proof.Machine
end

