-- ==== Sys2Proof/Machine/Direct.lean ====
section
/-!
DEFINITION. The direct GPIO reader (spec/42_direct_gpio.md) and the identity remap REMAP_GPIO (R163).
-/

namespace Sys2Proof.Machine

/-- `CFG_IN_PU` of each line of a list, in order. -/
def configureButtons : List Role → State → Out
  | [], s => .next s
  | p :: ps, s => andThen (configure p .inpPullUp (.cfgInPu p) s) (configureButtons ps)

/-- G_INIT (R160): the eight lines become pulled-up inputs, `BTN0` first (D8). -/
def execGInit (s : State) : Out := andThen (configureButtons Variant.gpio.roles s) (goto .respond)

/-- G_CLEAR (R161). -/
def execGClear (s : State) : Out := goto .gSmp { s with scr := 0#12, bitcnt := 0#4 }

/-- G_SMP (R162): one line, `BTN<BITCNT>`; a low level sets its bit; eight times. -/
def execGSmp (s : State) : Out :=
  match buttonAt s.bitcnt with
  | none => .fault .noSuchButton
  | some p =>
    sample p s fun l t =>
      goto (if (t.bitcnt + 1#4).toNat < 8 then .gSmp else .gDone)
        { t with scr := setOnLow l t.scr t.bitcnt.toNat, bitcnt := t.bitcnt + 1#4 }

/-- G_DONE (R163). -/
def execGDone (s : State) : Out := goto .respond { s with mask := remapGpioFn s.scr }

/-- REMAP_GPIO (R163): `MASK = s`. -/
def execRemapGpio (v : BitVec 8) (s : State) : Out := .next { s with mask := remapGpioFn (v.setWidth 12) }

end Sys2Proof.Machine
end

