-- ==== Sys2Proof/Machine/Primitive.lean ====
section
/-!
DEFINITION. The pin primitives as operations of their own (spec/41_pin_primitives.md). No step of the block is one primitive: the
phases run them by the same shared operations (log 13).
-/

namespace Sys2Proof.Machine

/-- `CFG_OUT(p)` (R140). -/
def execCfgOut (p : Role) (s : State) : Out := configure p .out (.cfgOut p) s

/-- `CFG_IN(p)` (R141). -/
def execCfgIn (p : Role) (s : State) : Out := configure p .inp (.cfgIn p) s

/-- `CFG_IN_PU(p)` (R142). -/
def execCfgInPu (p : Role) (s : State) : Out := configure p .inpPullUp (.cfgInPu p) s

/-- `DRV(p, v)` (R143). -/
def execDrv (p : Role) (v : Level) (s : State) : Out := drive p v s

/-- `SMP(p)` (R144): the level goes to the trace and to no register. -/
def execSmp (p : Role) (s : State) : Out := sample p s fun _ t => .next t

/-- `DLY(t)` (R145). -/
def execDly (t : BitVec 16) (s : State) : Out := .next (delay t.toNat s)

end Sys2Proof.Machine
end

