-- ==== Sys2Proof/Machine/Serial.lean ====
section
/-!
DEFINITION. The serial frame reader (spec/44_serial_frame.md): init, frame phases, bit phases, the byte transfer, the remap.
-/

namespace Sys2Proof.Machine

/-- P_INIT (R201): directions, rest levels (D6), and the start of the priming exchange. -/
def execPInit (s : State) : Out :=
  andThen (configure .att .out (.cfgOut .att) s) fun s1 =>
  andThen (configure .clk .out (.cfgOut .clk) s1) fun s2 =>
  andThen (configure .cmd .out (.cfgOut .cmd) s2) fun s3 =>
  andThen (configure .dat .inp (.cfgIn .dat) s3) fun s4 =>
  andThen (drive .att .H s4) fun s5 =>
  andThen (drive .clk .H s5) fun s6 =>
  andThen (drive .cmd .H s6) fun s7 =>
  goto .pSettle { s7 with prime := true, framecnt := 0#2 }

/-- P_SETTLE (R202): the settle delay before attention, a minimum (D9). -/
def execPSettle (s : State) : Out := goto .pAttLo (delay s.cfg.timing.tAtt s)

/-- P_ATT_LO (R203). -/
def execPAttLo (s : State) : Out := andThen (drive .att .L s) fun t => goto .pLoad { t with bytecnt := 0#3 }

/-- The start of a byte transfer: the byte to send, a cleared `RX`, bit 0 (R204). -/
def loadByte (b : Byte) (s : State) : State := { s with tx := b, rx := 0#8, bitcnt := 0#4 }

/-- P_LOAD (R204). -/
def execPLoad (s : State) : Out :=
  match txByte s with
  | some b => goto .xCmd (loadByte b s)
  | none => .fault .noSuchFrameByte

/-! ### One bit time (R95, R205 to R208): the actions of the four bit phases, without the change of `PHASE` -/

/-- `DRV(CMD, lvl(TX[BITCNT]))` (R205; `H` for 1, D13). -/
def bitCmd (s : State) : Out :=
  if s.bitcnt.toNat < 8 then drive .cmd (lvl (s.tx.getLsbD s.bitcnt.toNat)) s else .fault .noSuchByteBit

/-- `DRV(CLK, L)` and the open hold, which is no event when it is 0 (R206, D10). -/
def bitClkLo (s : State) : Out := andThen (drive .clk .L s) fun t => .next (delay t.cfg.timing.tXclkLo t)

/-- `DRV(CLK, H)` and the sample on this edge (R207). -/
def bitClkHi (s : State) : Out :=
  if s.bitcnt.toNat < 8 then
    andThen (drive .clk .H s) fun t =>
    sample .dat t fun l u => .next { u with rx := setOnLow l u.rx u.bitcnt.toNat }
  else .fault .noSuchByteBit

/-- The hold after every bit, the eighth included (R208, D11), and the step to the next bit. -/
def bitHold (s : State) : Out := .next { delay s.cfg.timing.tBit s with bitcnt := s.bitcnt + 1#4 }

/-- X_CMD (R205). -/
def execXCmd (s : State) : Out := andThen (bitCmd s) (goto .xClkLo)

/-- X_CLK_LO (R206). -/
def execXClkLo (s : State) : Out := andThen (bitClkLo s) (goto .xClkHi)

/-- X_CLK_HI (R207). -/
def execXClkHi (s : State) : Out := andThen (bitClkHi s) (goto .xHold)

/-- X_HOLD (R208): eight bits a byte. -/
def execXHold (s : State) : Out :=
  andThen (bitHold s) fun t => goto (if t.bitcnt.toNat < 8 then .xCmd else .pStore) t

/-! ### Frame phases -/

/-- P_STORE (R209): the header responses are kept and read by nothing (D14). -/
def execPStore (s : State) : Out :=
  if h : s.bytecnt.toNat < 5 then
    goto (if (s.bytecnt + 1#3).toNat < frameBytes s.prime then .pLoad else .pAttHi)
      { s with rxbuf := s.rxbuf.set s.bytecnt.toNat s.rx h, bytecnt := s.bytecnt + 1#3 }
  else .fault .noSuchFrameByte

/-- P_ATT_HI (R210): the end of a frame; the priming exchange has two (R215, D12). -/
def execPAttHi (s : State) : Out :=
  andThen (drive .att .H s) fun t =>
  if t.prime then
    if (t.framecnt + 1#2).toNat < nPrime then goto .pSettle { t with framecnt := t.framecnt + 1#2 }
    else goto .respond { t with framecnt := t.framecnt + 1#2, prime := false }
  else goto .pRemap t

/-- P_REMAP (R211): the low byte was received first. -/
def execPRemap (s : State) : Out :=
  goto .respond { s with field := fieldOf s.rxbuf, mask := remapPsxFn (fieldOf s.rxbuf) }

/-! ### The byte transfer (R213) and the bytes sent (R215, R216; log 14) -/

/-- One bit time: command level, clock low, clock high with the sample, hold (R213). -/
def bitTime (s : State) : Out := andThen (andThen (andThen (bitCmd s) bitClkLo) bitClkHi) bitHold

/-- So many bit times. -/
def bitTimes : Nat → State → Out
  | 0, s => .next s
  | n + 1, s => andThen (bitTime s) (bitTimes n)

/-- `XFER(b)` (R213): eight bit times, bit 0 first; the received byte is in `RX`. -/
def transfer (b : Byte) (s : State) : Out := bitTimes 8 (loadByte b s)

/-- TX_START (R216): `XFER(0x01)`. -/
def execTxStart (s : State) : Out := transfer 0x01#8 s

/-- TX_POLL (R216): `XFER(0x42)`. -/
def execTxPoll (s : State) : Out := transfer 0x42#8 s

/-- TX_PAD (R216): `XFER(0xFF)`. -/
def execTxPad (s : State) : Out := transfer 0xFF#8 s

/-- TX_PRIME (R215): `XFER(0x00)`. -/
def execTxPrime (s : State) : Out := transfer primeByte s

/-- REMAP_PSX (R212). -/
def execRemapPsx (f : BitVec 16) (s : State) : Out := .next { s with mask := remapPsxFn f }

end Sys2Proof.Machine
end

