-- ==== Sys2Proof/Machine/Shift.lean ====
section
/-!
DEFINITION. The shift-register reader, NES and SNES (spec/43_shift_register.md), and its remap functions.
-/

namespace Sys2Proof.Machine

/-- S_INIT (R170): directions, then the rest levels of `LATCH` and `CLOCK` (D5). -/
def execSInit (s : State) : Out :=
  andThen (configure .latch .out (.cfgOut .latch) s) fun s1 =>
  andThen (configure .clock .out (.cfgOut .clock) s1) fun s2 =>
  andThen (configure .data .inp (.cfgIn .data) s2) fun s3 =>
  andThen (drive .latch .L s3) fun s4 =>
  andThen (drive .clock .H s4) (goto .respond)

/-- S_LATCH_HI (R171). -/
def execSLatchHi (s : State) : Out :=
  andThen (drive .latch .H { s with scr := 0#12, bitcnt := 0#4 }) fun t =>
  goto .sLatchLo (delay t.cfg.timing.tLatch t)

/-- S_LATCH_LO (R172). -/
def execSLatchLo (s : State) : Out :=
  andThen (drive .latch .L s) fun t => goto .sSample (delay t.cfg.timing.tSettle t)

/-- S_SAMPLE (R173): a low level sets bit `BITCNT` of `SCR`. -/
def execSSample (s : State) : Out :=
  if s.bitcnt.toNat < 12 then
    sample .data s fun l t => goto .sClkLo { t with scr := setOnLow l t.scr t.bitcnt.toNat }
  else .fault .noSuchSampleBit

/-- S_CLK_LO (R174). -/
def execSClkLo (s : State) : Out :=
  andThen (drive .clock .L s) fun t => goto .sClkHi (delay t.cfg.timing.tClkLo t)

/-- S_CLK_HI (R175): `N` times, the last sample included. -/
def execSClkHi (s : State) : Out :=
  andThen (drive .clock .H s) fun t =>
  goto (if (t.bitcnt + 1#4).toNat < frameBits t then .sSample else .sRemap)
    { delay t.cfg.timing.tClkHi t with bitcnt := t.bitcnt + 1#4 }

/-- S_REMAP (R176). -/
def execSRemap (s : State) : Out :=
  goto .respond { s with mask := if variantOf s = .nes then remapNesFn s.scr else remapSnesFn s.scr }

/-- REMAP_NES (R177): `MASK = s`. -/
def execRemapNes (v : BitVec 8) (s : State) : Out := .next { s with mask := remapNesFn (v.setWidth 12) }

/-- REMAP_SNES (R178). -/
def execRemapSnes (v : BitVec 12) (s : State) : Out := .next { s with mask := remapSnesFn v }

end Sys2Proof.Machine
end

