-- ==== Sys2Proof/Machine/Dispatch.lean ====
section
/-! DEFINITION. One arm for each operation: the call of its meaning. -/

namespace Sys2Proof.Machine

def exec (i : Instr) (s : State) : Host.Outcome State Fault Refusal :=
  match i with
  | .init arg => Sys2Proof.Machine.execInit arg s
  | .read arg => Sys2Proof.Machine.execRead arg s
  | .ispressed arg => Sys2Proof.Machine.execIspressed arg s
  | .cmdReserved arg => Sys2Proof.Machine.execCmdReserved arg s
  | .idle => Sys2Proof.Machine.execIdle s
  | .dispatch => Sys2Proof.Machine.execDispatch s
  | .respond => Sys2Proof.Machine.execRespond s
  | .halt => Sys2Proof.Machine.execHalt s
  | .gInit => Sys2Proof.Machine.execGInit s
  | .gClear => Sys2Proof.Machine.execGClear s
  | .gSmp => Sys2Proof.Machine.execGSmp s
  | .gDone => Sys2Proof.Machine.execGDone s
  | .sInit => Sys2Proof.Machine.execSInit s
  | .sLatchHi => Sys2Proof.Machine.execSLatchHi s
  | .sLatchLo => Sys2Proof.Machine.execSLatchLo s
  | .sSample => Sys2Proof.Machine.execSSample s
  | .sClkLo => Sys2Proof.Machine.execSClkLo s
  | .sClkHi => Sys2Proof.Machine.execSClkHi s
  | .sRemap => Sys2Proof.Machine.execSRemap s
  | .pInit => Sys2Proof.Machine.execPInit s
  | .pSettle => Sys2Proof.Machine.execPSettle s
  | .pAttLo => Sys2Proof.Machine.execPAttLo s
  | .pLoad => Sys2Proof.Machine.execPLoad s
  | .xCmd => Sys2Proof.Machine.execXCmd s
  | .xClkLo => Sys2Proof.Machine.execXClkLo s
  | .xClkHi => Sys2Proof.Machine.execXClkHi s
  | .xHold => Sys2Proof.Machine.execXHold s
  | .pStore => Sys2Proof.Machine.execPStore s
  | .pAttHi => Sys2Proof.Machine.execPAttHi s
  | .pRemap => Sys2Proof.Machine.execPRemap s
  | .cfgOut p => Sys2Proof.Machine.execCfgOut p s
  | .cfgIn p => Sys2Proof.Machine.execCfgIn p s
  | .cfgInPu p => Sys2Proof.Machine.execCfgInPu p s
  | .drv p v => Sys2Proof.Machine.execDrv p v s
  | .smp p => Sys2Proof.Machine.execSmp p s
  | .dly t => Sys2Proof.Machine.execDly t s
  | .txStart => Sys2Proof.Machine.execTxStart s
  | .txPoll => Sys2Proof.Machine.execTxPoll s
  | .txPad => Sys2Proof.Machine.execTxPad s
  | .txPrime => Sys2Proof.Machine.execTxPrime s
  | .remapNes v => Sys2Proof.Machine.execRemapNes v s
  | .remapSnes v => Sys2Proof.Machine.execRemapSnes v s
  | .remapPsx f => Sys2Proof.Machine.execRemapPsx f s
  | .remapGpio v => Sys2Proof.Machine.execRemapGpio v s
  | .faultNone => Sys2Proof.Machine.execFaultNone s
  | .faultNoVariant => Sys2Proof.Machine.execFaultNoVariant s
  | .faultBadPinmap => Sys2Proof.Machine.execFaultBadPinmap s
  | .variantNone => Sys2Proof.Machine.execVariantNone s
  | .variantGpio => Sys2Proof.Machine.execVariantGpio s
  | .variantNes => Sys2Proof.Machine.execVariantNes s
  | .variantSnes => Sys2Proof.Machine.execVariantSnes s
  | .variantPsx => Sys2Proof.Machine.execVariantPsx s

end Sys2Proof.Machine
end

