-- ==== Sys2Proof/Machine/Fetch.lean ====
section
/-!
DEFINITION. Which operation the block runs next: `PHASE` is its program counter (spec/00_scope.md R13, spec/10_state.md R28), and in
IDLE it is the command the host presents (spec/40_host_operations.md R122). Then the placing of a table row there (log 20).
-/

namespace Sys2Proof.Machine

/-- The operation a phase is (R101). -/
def phaseInstr : Phase → Instr
  | .idle => .idle
  | .dispatch => .dispatch
  | .respond => .respond
  | .halt => .halt
  | .gInit => .gInit
  | .gClear => .gClear
  | .gSmp => .gSmp
  | .gDone => .gDone
  | .sInit => .sInit
  | .sLatchHi => .sLatchHi
  | .sLatchLo => .sLatchLo
  | .sSample => .sSample
  | .sClkLo => .sClkLo
  | .sClkHi => .sClkHi
  | .sRemap => .sRemap
  | .pInit => .pInit
  | .pSettle => .pSettle
  | .pAttLo => .pAttLo
  | .pLoad => .pLoad
  | .xCmd => .xCmd
  | .xClkLo => .xClkLo
  | .xClkHi => .xClkHi
  | .xHold => .xHold
  | .pStore => .pStore
  | .pAttHi => .pAttHi
  | .pRemap => .pRemap

/-- All phases, in the order of their codes (R101). -/
def allPhases : List Phase :=
  [.idle, .dispatch, .respond, .gInit, .gClear, .gSmp, .gDone, .sInit, .sLatchHi, .sLatchLo, .sSample, .sClkLo, .sClkHi, .sRemap,
   .pInit, .pSettle, .pAttLo, .pLoad, .xCmd, .xClkLo, .xClkHi, .xHold, .pStore, .pAttHi, .pRemap, .halt]

/-- The phase an operation is, if it is one. -/
def instrPhase (i : Instr) : Option Phase := allPhases.find? fun q => phaseInstr q == i

/-- A command is seen at the port: presented while `cmd_ready = 1` (R40, R121). -/
def commandSeen (s : State) : Bool := s.port.cmdValid && cmdReady s

/-- The operation the next step runs, when reset is not asserted. -/
def fetch (s : State) : Instr :=
  if commandSeen s then cmdInstr s.port.cmdOp s.port.cmdArg else phaseInstr s.phase

/-- The format in which the block's next operation is written. -/
def fetchFormat (s : State) : Format := if commandSeen s then .cmd else .phase

/-- The bytes of the block's next operation: the command word at the port, or the code in `PHASE`. -/
def fetchBytes (s : State) : List Byte :=
  if commandSeen s then [s.port.cmdArg, s.port.cmdOp.setWidth 8] else encode (phaseInstr s.phase)

/-! ### Placing a row of the table where the next step fetches it -/

/-- The variants whose reader has the phase: the choice of the sequence is VARIANT's (R73). -/
def readersOf : Phase → List Variant
  | .idle | .dispatch | .respond | .halt => []
  | .gInit | .gClear | .gSmp | .gDone => [.gpio]
  | .sInit | .sLatchHi | .sLatchLo | .sSample | .sClkLo | .sClkHi | .sRemap => [.nes, .snes]
  | .pInit | .pSettle | .pAttLo | .pLoad | .pStore | .pAttHi | .pRemap => [.psx]
  | .xCmd | .xClkLo | .xClkHi | .xHold => [.psx]

/-- The modes the init phase of a variant leaves (R61). -/
def initModes (v : Variant) : RoleMap Mode :=
  v.roles.foldl (fun m p => RoleMap.put m p p.initMode) (RoleMap.const .unconfigured)

/-- The instance has the reader of the phase, and its pins are as that reader's init phase leaves them, or as reset leaves them for
the init phase itself. -/
def withReader (q : Phase) (s : State) : State :=
  match readersOf q with
  | [] => s
  | v :: vs =>
    let v' := if variantOf s ∈ v :: vs then variantOf s else v
    { s with
      cfg := { s.cfg with variant := v'.code }
      mode := if q = initOf v then RoleMap.const .unconfigured else initModes v' }
where
  /-- The init phase of the reader. -/
  initOf : Variant → Phase
    | .gpio => .gInit
    | .nes | .snes => .sInit
    | _ => .pInit

/-- The machine about to run the operation, where a step can run it: a phase stands in `PHASE`, a command is presented at the port
in IDLE. Other rows are run inside phases, never by a step of their own, and change nothing here (log 13, log 20). -/
def place (i : Instr) (s : State) : State :=
  match i with
  | .init a => portWith 0#2 a false
  | .read a => portWith 1#2 a true
  | .ispressed a => portWith 2#2 a true
  | .cmdReserved a => portWith 3#2 a s.inited
  | i =>
    match instrPhase i with
    | some q =>
      withReader q { s with phase := q, port := { s.port with rst := false, cmdValid := false } }
    | none => s
where
  /-- IDLE, with the command at the port and `INITED` as the command needs it (R122). -/
  portWith (op : BitVec 2) (a : Byte) (inited : Bool) : State :=
    { s with
      phase := .idle
      fault := .ok
      inited := inited
      port := { rst := false, cmdValid := true, cmdOp := op, cmdArg := a } }

end Sys2Proof.Machine
end

