-- ==== Sys2Proof/Machine/Step.lean ====
section
/-!
DEFINITION. One step of the block: reset while it is asserted (spec/70_reset_and_hazards.md R280), else one phase or one command at
the port (spec/40_host_operations.md R122; D3: one step per phase).
-/

namespace Sys2Proof.Machine

/-- One step: under reset the reset values; else `rsp_valid` drops (R125) and the fetched operation runs. -/
def step (s : State) : Host.Outcome State Fault Refusal :=
  if s.port.rst then .next (applyReset s) else exec (fetch s) (dropResponse s)

/-- The state with a row of the operation table placed where `step` fetches (log 20). -/
def State.withFetchWord (s : State) (nbits w : Nat) : State :=
  match decodeTableWord nbits w with
  | some i => place i s
  | none => s

end Sys2Proof.Machine
end

