-- ==== Sys2Proof/Safety.lean ====
section
/-!
DEFINITION. What a good state and a good run are, in the terms the claims use: the fault of a halted block, the invariant of the
sequencer, what a step records, and the timing a trace keeps.
-/

namespace Sys2Proof.Machine

/-! ### The fault (R126, R254, R256; log 9) -/

/-- The block is halted by a configuration error: a fault, never a final state of a run (R126). -/
abbrev Faulted (s : State) : Prop := s.phase = .halt

/-! ### The invariant of the sequencer -/

/-- The phases between `ATT` settling and the end of a frame: those of a priming frame and of a poll frame (R202 to R210). -/
def Phase.inFrame : Phase → Bool
  | .pSettle | .pAttLo | .pLoad | .xCmd | .xClkLo | .xClkHi | .xHold | .pStore | .pAttHi => true
  | _ => false

/-- The bit phases of the serial reader (R205 to R208). -/
def Phase.inByte : Phase → Bool
  | .xCmd | .xClkLo | .xClkHi | .xHold => true
  | _ => false

/-- The phases of the shift reader in which the bit `BITCNT` is handled (R173 to R175). -/
def Phase.inShiftBit : Phase → Bool
  | .sSample | .sClkLo | .sClkHi => true
  | _ => false

/-- The init phases (R160, R170, R201). -/
def Phase.isInit : Phase → Bool
  | .gInit | .sInit | .pInit => true
  | _ => false

/-- The poll phases outside a serial frame: they are reached by READ and ISPRESSED only (R124, R210). -/
def Phase.pollOnly : Phase → Bool
  | .gClear | .gSmp | .gDone | .sLatchHi | .sLatchLo | .sSample | .sClkLo | .sClkHi | .sRemap | .pRemap => true
  | _ => false

/-- A phase of a reader is reached only in an instance that has that reader (R73, R124). -/
def Phase.fits (q : Phase) (v : Variant) : Bool := (readersOf q).isEmpty || (readersOf q).contains v

/-- The init phase of the variant has been executed since reset (R42, R127). -/
def pinsConfigured (s : State) : Bool :=
  match s.phase with
  | .idle | .dispatch => s.inited
  | .halt => false
  | q => !q.isInit

/-- `ATT` is low from P_ATT_LO to P_ATT_HI (R203, R210). -/
def attLevel (q : Phase) : Level := if q.inFrame && q != .pSettle && q != .pAttLo then .L else .H

/-- `CLK` is low between X_CLK_LO and X_CLK_HI only (R206, R207). -/
def clkLevel (q : Phase) : Level := if q = .xClkHi then .L else .H

/-- `LATCH` is high between S_LATCH_HI and S_LATCH_LO only (R171, R172). -/
def latchLevel (q : Phase) : Level := if q = .sLatchLo then .H else .L

/-- `CLOCK` is low between S_CLK_LO and S_CLK_HI only (R174, R175). -/
def clockLevel (q : Phase) : Level := if q = .sClkHi then .L else .H

/-- The lines a configured instance drives before it executes phase `q`, the level of `CMD` being `c` (R44, R61). -/
def drivenLines (v : Variant) (q : Phase) (c : Option Level) : RoleMap (Option Level) :=
  match v with
  | .nes | .snes =>
    RoleMap.put (RoleMap.put (RoleMap.const none) .latch (some (latchLevel q))) .clock (some (clockLevel q))
  | .psx =>
    RoleMap.put (RoleMap.put (RoleMap.put (RoleMap.const none) .att (some (attLevel q))) .clk (some (clkLevel q))) .cmd c
  | _ => RoleMap.const none

/-- Pins: the modes and the driven lines are those the phase calls for (R42, R43, R44, R61). -/
abbrev PinsInv (s : State) : Prop :=
  (pinsConfigured s = true →
    s.mode = initModes (variantOf s) ∧ s.outlvl = drivenLines (variantOf s) s.phase (s.outlvl.get .cmd) ∧
      (variantOf s = .psx → s.outlvl.get .cmd ≠ none)) ∧
  (pinsConfigured s = false →
    s.mode = RoleMap.const .unconfigured ∧ s.outlvl = RoleMap.const none)

/-- Configuration: past the check of DISPATCH the configuration is a good one, and a halted block has the error that `FAULT` names
(R124, R251, R255). -/
abbrev ConfigInv (s : State) : Prop :=
  (s.fault = .ok ↔ s.phase ≠ .halt) ∧
  (s.fault = .noVariant → variantOf s = .unselected) ∧
  (s.fault = .badPinmap → variantOf s ≠ .unselected ∧ pinmapValid s.cfg = false) ∧
  (pinsConfigured s = true ∨ s.phase.isInit = true → variantOf s ≠ .unselected ∧ pinmapValid s.cfg = true) ∧
  s.phase.fits (variantOf s) = true

/-- Control: `INITED` tells whether the command in progress is INIT, and `PRIME` whether the frame in progress is a priming frame
(R32, R33, R122). -/
abbrev ControlInv (s : State) : Prop :=
  (s.phase ≠ .idle → s.phase ≠ .halt → (s.op = .init ↔ s.inited = false)) ∧
  (s.phase = .halt ∨ s.phase.isInit = true → s.inited = false) ∧
  (s.phase.pollOnly = true → s.inited = true) ∧
  s.prime = (s.phase.inFrame && !s.inited)

/-- Counters and the scratch register stay in the ranges their rules give them (R20, R29 to R31). -/
abbrev CounterInv (s : State) : Prop :=
  (s.phase = .gSmp → s.bitcnt.toNat < 8) ∧
  (s.phase = .sLatchLo → s.bitcnt = 0#4) ∧
  (s.phase.inShiftBit = true → s.bitcnt.toNat < frameBits s) ∧
  (s.phase.inByte = true → s.bitcnt.toNat < 8) ∧
  (s.phase.inByte = true ∨ s.phase = .pLoad ∨ s.phase = .pStore → s.bytecnt.toNat < frameBytes s.prime) ∧
  (s.prime = true → s.framecnt.toNat < nPrime) ∧
  (s.phase.inShiftBit = true ∨ s.phase = .sLatchLo ∨ s.phase = .sRemap → variantOf s = .nes → s.scr.toNat < 256)

/-- The invariant of the sequencer: it holds after reset and every step keeps it. -/
abbrev Inv (s : State) : Prop := PinsInv s ∧ ConfigInv s ∧ ControlInv s ∧ CounterInv s

/-- What R47 says of the state after reset, the registers it leaves unwritten apart (log 2). -/
abbrev AtReset (s : State) : Prop :=
  s.phase = .idle ∧ s.inited = false ∧ s.fault = .ok ∧ s.prime = false ∧
    (∀ p : Role, s.mode.get p = .unconfigured ∧ s.outlvl.get p = none) ∧ cmdReady s = true ∧ s.rspValid = false

/-- While `rst` is asserted the state is that after reset (R280). -/
abbrev ResetHolds (s : State) : Prop := s.port.rst = true → AtReset s

/-- The host's duty at the port: a command stands there only while the block is ready for one (R121, R286, log 7). -/
abbrev HostDuty (s : State) : Prop := s.port.cmdValid = true → cmdReady s = true

/-! ### What a step records (R16, R70) -/

/-- Exactly these pin events happened, in this order, after all earlier ones, and used up so many of the environment's answers;
time did not go back. -/
def Happened (w w' : World) (evs : List Event) (answers : Nat) : Prop :=
  ∃ new : List Stamped, w'.trace = w.trace ++ new ∧ new.map (·.ev) = evs ∧ w'.env = w.env.drop answers ∧ w.now ≤ w'.now

/-- The environment decided the level of the next sample of `p`: the level it drives, or `H` where it drives nothing on a
pulled-up line (R74, R75). -/
def AnswerOf (s : State) (p : Role) (l : Level) : Prop :=
  (∀ a, s.world.env.head? = some (some a) → l = a) ∧
  (s.world.env.head? = some none → s.mode.get p = .inpPullUp → l = .H)

/-! ### Timing (R145, R284) -/

/-- The hold an event asks for. -/
def holdOf : Event → Nat
  | .dly t => t
  | _ => 0

/-- Every hold of the trace is kept: what comes after an event begins no earlier than its hold after it (R145, R284). -/
abbrev HoldsKept (w : World) : Prop :=
  w.trace.Pairwise (fun a b => a.time + holdOf a.ev ≤ b.time) ∧ ∀ a ∈ w.trace, a.time + holdOf a.ev ≤ w.now

/-- No minimum is shorter than the document's literal (R9, R284). -/
abbrev Timing.AtLeastLiterals (t : Timing) : Prop :=
  12 ≤ t.tLatch ∧ 6 ≤ t.tSettle ∧ 6 ≤ t.tClkLo ∧ 6 ≤ t.tClkHi ∧ 2 ≤ t.tAtt ∧ 10 ≤ t.tBit

/-- The minimum time of each phase (R293). -/
def minTime (c : Timing) : Phase → Nat
  | .sLatchHi => c.tLatch
  | .sLatchLo => c.tSettle
  | .sClkLo => c.tClkLo
  | .sClkHi => c.tClkHi
  | .pSettle => c.tAtt
  | .xClkLo => c.tXclkLo
  | .xHold => c.tBit
  | _ => 0

/-! ### Whole commands -/

/-- So many steps lead from one state to another. -/
def Runs (n : Nat) (s t : State) : Prop := Host.Core.run Sys2Proof.core n s = .next t

/-- The event of a hold, which a hold of 0 does not have (R206). -/
def holdEvents (t : Nat) : List Event := if t = 0 then [] else [.dly t]

/-- The pin events of one shift bit whose sample is `l` (R179). -/
def shiftBitEvents (c : Timing) (l : Level) : List Event :=
  [.smp .data l, .drv .clock .L, .dly c.tClkLo, .drv .clock .H, .dly c.tClkHi]

/-- The pin events of a shift poll of `n` bits (R179). -/
def shiftPollEvents (c : Timing) (n : Nat) (l : Nat → Level) : List Event :=
  [.drv .latch .H, .dly c.tLatch, .drv .latch .L, .dly c.tSettle] ++
    (List.range n).flatMap fun k => shiftBitEvents c (l k)

/-- The pin events of one byte transfer sending `b` and sampling `l 0` to `l 7` (R213). -/
def xferEvents (c : Timing) (b : Byte) (l : Nat → Level) : List Event :=
  (List.range 8).flatMap fun k =>
    [.drv .cmd (lvl (b.getLsbD k)), .drv .clk .L] ++ holdEvents c.tXclkLo ++ [.drv .clk .H, .smp .dat (l k), .dly c.tBit]

/-- The pin events of a frame sending the bytes `bs`, the samples being numbered through the frame (R214, R215). -/
def frameEvents (c : Timing) (bs : List Byte) (l : Nat → Level) : List Event :=
  [.dly c.tAtt, .drv .att .L] ++
    (bs.zipIdx.flatMap fun (b, j) => xferEvents c b fun k => l (8 * j + k)) ++ [.drv .att .H]

/-- Steps from P_ATT_HI to RESPOND, both counted (R210). -/
def stepsFromAttHi (s : State) : Nat := if s.prime then 2 + 37 * (nPrime - s.framecnt.toNat - 1) else 3

/-- Steps from P_STORE to RESPOND, both counted (R209). -/
def stepsFromStore (s : State) : Nat := 1 + 34 * (frameBytes s.prime - s.bytecnt.toNat - 1) + stepsFromAttHi s

/-- Steps until the response of the command in progress, RESPOND counted (R130). -/
def stepsLeft (s : State) : Nat :=
  match s.phase with
  | .idle | .halt => 0
  | .respond => 1
  | .gInit | .sInit | .gDone | .sRemap | .pRemap => 2
  | .pInit => 76
  | .dispatch =>
    match variantOf s, s.op with
    | .gpio, .init => 3
    | .nes, .init => 3
    | .snes, .init => 3
    | _, .init => 77
    | .gpio, _ => 12
    | .nes, _ => 29
    | .snes, _ => 41
    | _, _ => 176
  | .gClear => 11
  | .gSmp => 8 - s.bitcnt.toNat + 2
  | .sLatchHi => 3 * frameBits s + 4
  | .sLatchLo => 3 * frameBits s + 3
  | .sSample => 3 * (frameBits s - s.bitcnt.toNat) + 2
  | .sClkLo => 3 * (frameBits s - s.bitcnt.toNat) + 1
  | .sClkHi => 3 * (frameBits s - s.bitcnt.toNat)
  | .pSettle => 2 + 34 * frameBytes s.prime + stepsFromAttHi s
  | .pAttLo => 1 + 34 * frameBytes s.prime + stepsFromAttHi s
  | .pLoad => 33 + stepsFromStore s
  | .xCmd => 4 * (8 - s.bitcnt.toNat) + stepsFromStore s
  | .xClkLo => 4 * (8 - s.bitcnt.toNat) - 1 + stepsFromStore s
  | .xClkHi => 4 * (8 - s.bitcnt.toNat) - 2 + stepsFromStore s
  | .xHold => 4 * (8 - s.bitcnt.toNat) - 3 + stepsFromStore s
  | .pStore => stepsFromStore s
  | .pAttHi => stepsFromAttHi s

/-- A command is in progress: accepted and not yet answered, and no configuration error has stopped it (R35, R130). -/
def inProgress (s : State) : Bool := s.phase != .idle && s.phase != .halt

/-- DISPATCH finds no configuration error (R124). -/
def configured (s : State) : Bool := variantOf s != .unselected && pinmapValid s.cfg

/-- Exactly bit `k` of `v` is joined with `b`; the result is `v'`. -/
def JoinsBit {w : Nat} (v v' : BitVec w) (k : Nat) (b : Bool) : Prop :=
  ∀ j < w, v'.getLsbD j = (v.getLsbD j || (b && decide (j = k)))

end Sys2Proof.Machine
end

