-- ==== Sys2Proof/Certificates/Slice0/Obligations.lean ====
section
/-!
DEFINITION. The statements about the model. A docstring names the rule of spec/ a statement formalises; "decision D<n>" is the
spec's own choice (spec/92_eei_decisions.md), "log <n>" the model's (notes/assumptions/<n>.md). In a next state written as an update
of `s`, every field that is not named is unchanged: that is the statement's frame, and the block has no memory beside the fields
(R45).
-/

open Sys2Proof Sys2Proof.Machine

/-! ### Reset, fetch, encoding -/

/-- After reset every piece of state that R47 gives a value has it, for every configuration (R47, R280; decision D17; the
configuration of `State.reset` itself is the model's choice, log 1). -/
def Obligations.ResetLeavesTheTableOfValues : Prop :=
  ∀ c : Params,
    let s := State.resetWith c
    s.phase = .idle ∧ s.inited = false ∧ s.fault = .ok ∧ s.prime = false ∧
      (∀ p : Role, s.mode.get p = .unconfigured ∧ s.outlvl.get p = none) ∧
      cmdReady s = true ∧ busy s = false ∧ s.rspValid = false ∧ s.cfg = c ∧
      State.reset = State.resetWith Params.unconfigured

/-- While `rst` is asserted and at the moment it is released the state is that after reset: the host's assertion and its release bring
it about at once, a step under reset keeps it, and so does every move of the host and every step. A command in progress is abandoned
with no response and its lines are released, no pin event happens, and the configuration is not changed (R280; decision D17; the
port, the time and the trace go on, log 22). -/
def Obligations.AssertedResetAbandonsTheCommand : Prop :=
  (∀ s : State, s.port.rst = true →
    ∃ t, step s = .next t ∧ AtReset t ∧ t.cfg = s.cfg ∧ t.port = s.port ∧ t.world = s.world) ∧
  (∀ (s : State) (b : Bool), s.port.rst = true ∨ b = true →
    AtReset (s.setRst b) ∧ (s.setRst b).cfg = s.cfg ∧ (s.setRst b).port = { s.port with rst := b } ∧ (s.setRst b).world = s.world) ∧
  (∀ s : State, s.port.rst = false → s.setRst false = { s with released := true }) ∧
  (∀ s : State, ResetHolds s →
    (∀ t, step s = .next t → t.port.rst = s.port.rst ∧ ResetHolds t) ∧ (∀ b, ResetHolds (s.setRst b)) ∧
      ∀ o a, ResetHolds (s.present o a)) ∧
  ∀ c : Params, ResetHolds (State.resetWith c) ∧ (State.powerUp c).port.rst = true ∧ AtReset (State.powerUp c)

/-- Outside reset a step is the meaning of the well-formed operation that decoding finds in the command word at the port or in
`PHASE`, after `rsp_valid` has dropped (R28, R122, R125; decision D3, log 11). -/
def Obligations.StepRunsTheDecodedOperation : Prop :=
  ∀ s : State, s.port.rst = false →
    ∃ i, decode (fetchFormat s) (fetchBytes s) = .ok i [] ∧ i.wellFormed = true ∧ step s = exec i { s with rspValid := false }

/-- Words with the codes of the spec's tables (R99, R101, R103, R102, R100, R216, R94, R97) decode to their operations. The low byte
first, the refusal of bits above a format's width, and the operand bytes after a trace tag are the model's choice (log 18). -/
def Obligations.WordsOfTheTablesDecode : Prop :=
  decode .cmd [0b00010000#8, 0b00000010#8] = .ok (.ispressed 0x10#8) [] ∧
  decode .cmd [0#8, 0b00000100#8] = .bad .reservedBits ∧
  decode .phase [0b00010011#8] = .ok .sSample [] ∧
  decode .phase [0b00000011#8] = .bad .reservedPhase ∧
  decode .trace [0b011#8, 3#8, 1#8] = .ok (.drv .clk .H) [] ∧
  decode .trace [0b110#8] = .bad .unusedTag ∧
  decode .byte [0b01000010#8] = .ok .txPoll [] ∧
  decode .sr12 [0#8, 0b1010#8] = .ok (.remapSnes 0b101000000000#12) [] ∧
  decode .frame [0x10#8, 0x40#8] = .ok (.remapPsx 0x4010#16) [] ∧
  decode .fault [0b11#8] = .bad .reservedFault ∧
  decode .variant [0b101#8] = .ok .variantNone []

/-- Decoding the encoding of a well-formed operation gives it back, with every operand, and leaves what follows it (R90 to R105; the
layout in bytes is log 18). -/
def Obligations.DecodeUndoesEncode : Prop :=
  ∀ i : Instr, i.wellFormed = true → ∀ rest : List Byte, decode (formatOf i) (encode i ++ rest) = .ok i rest

/-- What decodes is a well-formed operation of that format whose encoding is the bytes read; only the variant codes 5 to 7, which
stand for `NONE` as code 0 does (R100), are not written back (log 18). -/
def Obligations.EncodeUndoesDecode : Prop :=
  ∀ (f : Format) (bs : List Byte) (i : Instr) (rest : List Byte), decode f bs = .ok i rest →
    i.wellFormed = true ∧ formatOf i = f ∧
      (encode i ++ rest = bs ∨ (f = .variant ∧ i = .variantNone ∧ ∃ b : Byte, 5 ≤ b.toNat ∧ b.toNat ≤ 7 ∧ bs = b :: rest))

/-! ### Rules about every step -/

/-- The configuration is fixed before reset is released and immutable afterwards: no step, a reset among them, changes it, and once
reset has been released no operation does, under a later reset neither, nor forgets that it was released, so that `PinmapValid` has
one value for the life of the instance (R8, R37, R38, R253, R256; log 17, log 21). -/
def Obligations.NoStepChangesTheConfiguration : Prop :=
  (∀ s t : State, step s = .next t → t.cfg = s.cfg ∧ t.released = s.released) ∧
  (∀ (i : Instr) (s t : State), exec i s = .next t →
    t.released = s.released ∧ (s.released = true ∨ s.port.rst = false → t.cfg = s.cfg ∧ pinmapValid t.cfg = pinmapValid s.cfg)) ∧
  (∀ (s : State) (b : Bool), (s.setRst b).cfg = s.cfg) ∧
  ∀ (s : State) (o : BitVec 2) (a : Byte), (s.present o a).cfg = s.cfg ∧ (s.present o a).released = s.released

/-- The trace only grows at its end, by events no earlier than now, one environment answer being used for each sample (R64, R70;
log 4, log 6). -/
def Obligations.StepsOnlyAppendToTheTrace : Prop :=
  ∀ s t : State, step s = .next t →
    ∃ new : List Stamped, t.world.trace = s.world.trace ++ new ∧ (∀ e ∈ new, s.world.now ≤ e.time) ∧
      s.world.now ≤ t.world.now ∧
      t.world.env = s.world.env.drop (new.countP fun e => match e.ev with | .smp _ _ => true | _ => false)

/-- Every step keeps every hold of the trace: the event after a `DLY(t)` begins at least `t` microseconds later (R145, R284; the
model's time is log 5). -/
def Obligations.StepsKeepEveryHold : Prop :=
  ∀ s t : State, HoldsKept s.world → step s = .next t → HoldsKept t.world

/-- A phase takes at least its minimum time (R293), which for a configuration that respects the literals is at least the document's
(R9, R284; the model's time is log 5). -/
def Obligations.PhasesTakeTheirMinimumTimes : Prop :=
  (∀ (q : Phase) (s t : State), exec (phaseInstr q) s = .next t → s.world.now + minTime s.cfg.timing q ≤ t.world.now) ∧
  ∀ c : Timing, c.AtLeastLiterals →
    12 ≤ minTime c .sLatchHi ∧ 6 ≤ minTime c .sLatchLo ∧ 6 ≤ minTime c .sClkLo ∧ 6 ≤ minTime c .sClkHi ∧
      2 ≤ minTime c .pSettle ∧ 10 ≤ minTime c .xHold

/-- Outside reset only the init phases change a mode, and no step changes the mode of a role the variant does not have (R42, R60,
R147). -/
def Obligations.OnlyInitPhasesChangeModes : Prop :=
  ∀ s t : State, s.port.rst = false → step s = .next t →
    (t.mode = s.mode ∨ s.phase.isInit = true) ∧ ∀ p : Role, hasRole s p = false → t.mode.get p = s.mode.get p

/-- Outside reset `INITED` is set only by RESPOND of an INIT and cleared by nothing, and `FAULT` is written only by DISPATCH of an
INIT (R33, R34). -/
def Obligations.StatusBitsHaveOneWriter : Prop :=
  ∀ s t : State, s.port.rst = false → step s = .next t →
    (t.inited ≠ s.inited → t.inited = true ∧ s.phase = .respond ∧ s.op = .init) ∧
    (t.fault ≠ s.fault → s.phase = .dispatch ∧ s.op = .init)

/-- `MASK` is written only by the three phases that end a poll, and a response is presented only by RESPOND (R25, R125; the
state in which `rsp_valid` is seen is log 11). -/
def Obligations.MaskAndResponseWriters : Prop :=
  ∀ s t : State, s.port.rst = false → step s = .next t →
    (t.mask ≠ s.mask → s.phase = .gDone ∨ s.phase = .sRemap ∨ s.phase = .pRemap) ∧
    (t.rspValid = true ↔ s.phase = .respond)

/-- The state after reset meets the invariant, and its trace keeps every hold, for every configuration (R47; decision D17;
the time is log 5). -/
def Obligations.ResetMeetsTheInvariants : Prop :=
  ∀ c : Params, Inv (State.resetWith c) ∧ HoldsKept (State.resetWith c).world

/-- Every step keeps the invariant: the modes and driven levels the phase calls for, a good configuration past its check, `INITED`
and `PRIME` in step with the command, counters in range (R20, R29 to R34, R42 to R44, R61, R69, R124). -/
def Obligations.StepsKeepTheInvariant : Prop :=
  ∀ s t : State, Inv s → step s = .next t → Inv t

/-- In a state of the invariant no step meets a model fault (every `require` of the primitives holds, R143, R144; log 12), and a step
is refused only where a command is seen at the port (R14, R123). -/
def Obligations.StepsStopOnlyAtThePort : Prop :=
  ∀ s : State, Inv s → (∀ r, step s ≠ .fault r) ∧ (∀ r, step s = .refused r → s.port.rst = false ∧ commandSeen s = true)

/-- In a state of the invariant with no reset, a step of a command in progress goes on and is exactly one nearer to the response
(R130; decision D3). That `rsp_valid` is seen in the state after RESPOND, and not in the one before it, is the model's choice (log 11). -/
def Obligations.EveryStepNearsTheResponse : Prop :=
  ∀ s : State, Inv s → s.port.rst = false → inProgress s = true →
    (s.phase = .dispatch → s.op = .init → configured s = true) →
    ∃ t, step s = .next t ∧ stepsLeft t + 1 = stepsLeft s ∧ (s.phase ≠ .respond → inProgress t = true ∧ t.rspValid = false) ∧
      (s.phase = .respond → t.phase = .idle ∧ t.rspValid = true)

/-- Every accepted command that passes the check ends in the number of steps of R130, with the response only at the end (decision
D3). That `rsp_valid` is seen in the IDLE state at the end, and not in the RESPOND state before it, is the model's choice (log 11). -/
def Obligations.EveryAcceptedCommandEnds : Prop :=
  ∀ s : State, Inv s → s.port.rst = false → s.phase = .dispatch → (s.op = .init → configured s = true) →
    (∃ t, Runs (stepsLeft s) s t ∧ t.phase = .idle ∧ t.rspValid = true ∧ t.op = s.op ∧ t.inited = true) ∧
    (∀ n t, 0 < n → n < stepsLeft s → Runs n s t → t.phase ≠ .idle ∧ t.rspValid = false) ∧
    ((stepsLeft s = 3 ∨ stepsLeft s = 77) ↔ s.op = .init) ∧
    (s.op ≠ .init → stepsLeft s = 12 ∨ stepsLeft s = 29 ∨ stepsLeft s = 41 ∨ stepsLeft s = 176)

/-! ### The command port and the common phases -/

/-- The three commands, when they are acceptable, are latched into `OP` and `ARG` and DISPATCH is next (R122, R127 to R129;
decision D15); the command is then withdrawn from the port (log 7). -/
def Obligations.AcceptableCommandsAreLatched : Prop :=
  ∀ (s : State) (a : Byte), s.phase = .idle → s.fault = .ok →
    (s.inited = false →
      exec (.init a) s = .next { s with op := .init, arg := a, phase := .dispatch, port := { s.port with cmdValid := false } }) ∧
    (s.inited = true →
      exec (.read a) s = .next { s with op := .read, arg := a, phase := .dispatch, port := { s.port with cmdValid := false } } ∧
      exec (.ispressed a) s =
        .next { s with op := .ispressed, arg := a, phase := .dispatch, port := { s.port with cmdValid := false } })

/-- A command that is not acceptable is refused: a poll before INIT, a second INIT, the reserved code; and while `cmd_ready = 0` no
command is seen (R106, R123; decision D15; a refusal as an outcome of the step is log 8). -/
def Obligations.UnacceptableCommandsAreRefused : Prop :=
  ∀ (s : State) (a : Byte),
    (cmdReady s = true → exec (.cmdReserved a) s = .refused .reservedCommand) ∧
    (cmdReady s = true → s.inited = true → exec (.init a) s = .refused .initTwice) ∧
    (cmdReady s = true → s.inited = false →
      exec (.read a) s = .refused .pollBeforeInit ∧ exec (.ispressed a) s = .refused .pollBeforeInit) ∧
    (cmdReady s = false → ∀ i ∈ [Instr.init a, .read a, .ispressed a, .cmdReserved a], exec i s = .refused .portNotReady)

/-- IDLE waits while no command is presented, and does with a presented command what that command's operation does (R122; decision
D15). A step in any other phase sees no command, whatever stands at the port (R123). The host has no move of presenting one while
`cmd_ready = 0` (R286), and no step leaves one at the port of a busy block: nothing is queued (R121; the withdrawal at acceptance is the
model's choice, log 7). -/
def Obligations.IdleTakesWhatThePortPresents : Prop :=
  ∀ s : State,
    (s.port.cmdValid = false → exec .idle s = .next { s with phase := .idle }) ∧
    (s.port.cmdValid = true → s.phase = .idle → s.fault = .ok → exec .idle s = exec (cmdInstr s.port.cmdOp s.port.cmdArg) s) ∧
    (s.phase ≠ .idle → ∀ p : Port, fetch { s with port := p } = phaseInstr s.phase) ∧
    (∀ o a, (cmdReady s = false → s.present o a = s) ∧
      (cmdReady s = true → s.present o a = { s with port := { s.port with cmdValid := true, cmdOp := o, cmdArg := a } }) ∧
      (HostDuty s → HostDuty (s.present o a))) ∧
    (∀ t, HostDuty s → step s = .next t → HostDuty t)

/-- DISPATCH (R124), every branch: on INIT the error `NO_VARIANT` first, then `BAD_PINMAP`, with no pin event and nothing but `FAULT`
and `PHASE` written, else the init phase of the variant; on a poll the first poll phase of the variant. In a state of the
invariant the poll side never meets an invalid variant. The place and the codes of the check are decision D16; that the step which
finds an error answers a next state, in HALT, where R14 calls the outcome a fault, is the model's reading (DEDUCED, log 10). -/
def Obligations.DispatchChecksThenJumps : Prop :=
  (∀ s : State, s.op = .init →
    (variantOf s = .unselected → exec .dispatch s = .next { s with fault := .noVariant, phase := .halt }) ∧
    (variantOf s ≠ .unselected → pinmapValid s.cfg = false → exec .dispatch s = .next { s with fault := .badPinmap, phase := .halt }) ∧
    (pinmapValid s.cfg = true →
      (variantOf s = .gpio → exec .dispatch s = .next { s with phase := .gInit }) ∧
      (variantOf s = .nes ∨ variantOf s = .snes → exec .dispatch s = .next { s with phase := .sInit }) ∧
      (variantOf s = .psx → exec .dispatch s = .next { s with phase := .pInit }))) ∧
  (∀ s : State, s.op ≠ .init →
    (variantOf s = .gpio → exec .dispatch s = .next { s with phase := .gClear }) ∧
    (variantOf s = .nes ∨ variantOf s = .snes → exec .dispatch s = .next { s with phase := .sLatchHi }) ∧
    (variantOf s ≠ .gpio → variantOf s ≠ .nes → variantOf s ≠ .snes → exec .dispatch s = .next { s with phase := .pSettle })) ∧
  (∀ s : State, Inv s → s.phase = .dispatch → s.op ≠ .init → s.inited = true ∧ variantOf s ≠ .unselected)

/-- `PinmapValid` is a predicate on VARIANT and PINMAP: it is false when a role of the active variant is bound to no line, and false
when the supplier's predicate rejects the pair; it is true when the predicate accepts the pair and every role is bound (R8, R253;
decision D16, log 21). -/
def Obligations.UnboundRoleIsBadPinmap : Prop :=
  ∀ s : State,
    ((∃ p, hasRole s p = true ∧ s.cfg.pinmap.get p = none) → pinmapValid s.cfg = false) ∧
    ((variantOf s, s.cfg.pinmap) ∉ s.cfg.accepted → pinmapValid s.cfg = false) ∧
    ((variantOf s, s.cfg.pinmap) ∈ s.cfg.accepted → (∀ p, hasRole s p = true → s.cfg.pinmap.get p ≠ none) →
      pinmapValid s.cfg = true)

/-- RESPOND presents the response and returns to IDLE: `INITED` on INIT, `BOOL = (MASK & ARG) != 0` on ISPRESSED, nothing else
written (R40, R125; decisions D2, D19). That `rsp_valid` is seen in the state after RESPOND is log
11. `rsp_op` is a copy of `OP`, `rsp_mask` of `MASK` where `OP` is READ, `rsp_bool` of `BOOL` where it
is ISPRESSED; that `rsp_bool` has no value in a READ response and `rsp_mask` none in an ISPRESSED response is the model's choice (log
11). -/
def Obligations.RespondPresentsTheResult : Prop :=
  ∀ s : State, ∃ t, exec .respond s = .next t ∧
    t = { s with inited := t.inited, bool := t.bool, rspValid := true, phase := .idle } ∧
    t.inited = (s.inited || decide (s.op = .init)) ∧
    (s.op ≠ .ispressed → t.bool = s.bool) ∧
    (s.op = .ispressed → (t.bool = true ↔ ∃ k < 8, s.mask.getLsbD k = true ∧ s.arg.getLsbD k = true)) ∧
    rspOp t = s.op.code ∧ (s.op = .read → rspMask t = some s.mask) ∧ (s.op = .ispressed → rspBool t = some t.bool) ∧
    (s.op ≠ .read → rspMask t = none) ∧ (s.op ≠ .ispressed → rspBool t = none)

/-- HALT is for ever: whatever stands at the port, every run of steps without reset stays in HALT with `FAULT`, the pins, the lines
and the trace as they were, `cmd_ready = 0` and `rsp_valid = 0` (R126, R256; decision D21, log 9). -/
def Obligations.HaltIsForEver : Prop :=
  ∀ s : State, s.phase = .halt → s.port.rst = false →
    exec .halt s = .next { s with rspValid := false } ∧
    (∀ p : Port, p.rst = false → ∃ t, step { s with port := p } = .next t ∧ Faulted t) ∧
    ∀ n, ∃ t, Runs n s t ∧ Faulted t ∧ t.fault = s.fault ∧ t.mode = s.mode ∧ t.outlvl = s.outlvl ∧
      t.world = s.world ∧ cmdReady t = false ∧ (0 < n → t.rspValid = false)

/-- The fault codes as operations: no error does nothing, and the two errors are taken as R254 says: `FAULT` and `PHASE` are written
and nothing else (R251, R254; decisions D16, D21, log 16). -/
def Obligations.FaultCodesRaiseTheirErrors : Prop :=
  ∀ s : State,
    exec .faultNone s = .next s ∧
    exec .faultNoVariant s = .next { s with fault := .noVariant, phase := .halt } ∧
    exec .faultBadPinmap s = .next { s with fault := .badPinmap, phase := .halt }

/-- The variant codes select a variant, by the codes of R100, before reset is released, and once it has been released the selection is
refused, under a later reset too (R8, R37, R256, R282; decision D2, log 17); that reset has been released is recorded when the host
releases it, and never forgotten. Codes 5 to 7 count as `NONE`. -/
def Obligations.VariantIsSelectedBeforeResetIsReleased : Prop :=
  (∀ s : State, s.port.rst = true → s.released = false →
    exec .variantNone s = .next { s with cfg := { s.cfg with variant := 0#3 } } ∧
    exec .variantGpio s = .next { s with cfg := { s.cfg with variant := 1#3 } } ∧
    exec .variantNes s = .next { s with cfg := { s.cfg with variant := 2#3 } } ∧
    exec .variantSnes s = .next { s with cfg := { s.cfg with variant := 3#3 } } ∧
    exec .variantPsx s = .next { s with cfg := { s.cfg with variant := 4#3 } }) ∧
  (∀ s : State, s.port.rst = false ∨ s.released = true → ∀ i ∈ [Instr.variantNone, .variantGpio, .variantNes, .variantSnes, .variantPsx],
    exec i s = .refused .configurationFixed) ∧
  (∀ s : State, (s.setRst false).released = true ∧ (s.released = true → (s.setRst true).released = true) ∧
    (s.port.rst = true → s.released = false → (s.setRst true).released = false)) ∧
  (∀ s : State, variantOf s = .unselected ↔ s.cfg.variant = 0#3 ∨ 5#3 ≤ s.cfg.variant)

/-! ### Pin primitives -/

/-- The configuration primitives give any pin role of the instance their mode and record the event; the line gets no level (R140 to
R142; decision D7 for the missing pull of `CFG_IN`; a mode of the other direction is log 28). -/
def Obligations.ConfigurationPrimitivesSetTheMode : Prop :=
  ∀ (s : State) (p : Role), hasRole s p = true →
    (∃ w, exec (.cfgOut p) s = .next { s with mode := s.mode.put p .out, world := w } ∧ Happened s.world w [.cfgOut p] 0) ∧
    (∃ w, exec (.cfgIn p) s = .next { s with mode := s.mode.put p .inp, world := w } ∧ Happened s.world w [.cfgIn p] 0) ∧
    ∃ w, exec (.cfgInPu p) s = .next { s with mode := s.mode.put p .inpPullUp, world := w } ∧ Happened s.world w [.cfgInPu p] 0

/-- `DRV(p, v)` on an output of the instance drives exactly that line, even to the level it already has, and records the event
(R143). -/
def Obligations.DrvDrivesOneLine : Prop :=
  ∀ (s : State) (p : Role) (v : Level), hasRole s p = true → s.mode.get p = .out →
    ∃ w, exec (.drv p v) s = .next { s with outlvl := s.outlvl.put p (some v), world := w } ∧ Happened s.world w [.drv p v] 0

/-- `SMP(p)` observes one line once and writes no register; the level is the environment's answer, and an undriven pulled-up line
gives `H` (R64, R74, R75, R144; the environment's answers are log 4). -/
def Obligations.SmpObservesOneLine : Prop :=
  ∀ (s : State) (p : Role), hasRole s p = true → s.mode.get p = .inp ∨ s.mode.get p = .inpPullUp →
    ∃ l w, exec (.smp p) s = .next { s with world := w } ∧ Happened s.world w [.smp p l] 1 ∧ AnswerOf s p l

/-- `DLY(t)` writes no register, records its event unless `t` is 0 (R206 for `T_XCLK_LO`, log 29 for any other), and lasts at least `t`
(R145; the time is log 5). -/
def Obligations.DlyLastsAtLeastItsTime : Prop :=
  ∀ (s : State) (t : BitVec 16),
    ∃ w, exec (.dly t) s = .next { s with world := w } ∧ Happened s.world w (holdEvents t.toNat) 0 ∧ s.world.now + t.toNat ≤ w.now

/-- Where a primitive stops: on a role the instance does not have, and, for `DRV` and `SMP`, where their `require` fails
(R60, R143, R144; log 12). -/
def Obligations.PrimitivesStopOutsideTheirRequire : Prop :=
  ∀ (s : State) (p : Role) (v : Level),
    (hasRole s p = false → ∀ i ∈ [Instr.cfgOut p, .cfgIn p, .cfgInPu p, .drv p v, .smp p], exec i s = .fault (.noSuchRole p)) ∧
    (hasRole s p = true → s.mode.get p ≠ .out → exec (.drv p v) s = .fault (.driveRequiresOut p)) ∧
    (hasRole s p = true → s.mode.get p ≠ .inp → s.mode.get p ≠ .inpPullUp → exec (.smp p) s = .fault (.sampleRequiresIn p))

/-! ### The direct reader -/

/-- G_INIT makes the eight lines pulled-up inputs, `BTN0` first, drives nothing and samples nothing (R160; decision D8); G_CLEAR
clears `SCR` and `BITCNT` and touches no pin (R161; decision D3). -/
def Obligations.DirectInitPullsUpAndClearStartsAfresh : Prop :=
  (∀ s : State, variantOf s = .gpio →
    ∃ m w, exec .gInit s = .next { s with mode := m, phase := .respond, world := w } ∧
      (∀ i, m.get (.btn i) = .inpPullUp) ∧ (∀ p : Role, hasRole s p = false → m.get p = s.mode.get p) ∧
      Happened s.world w ((List.finRange 8).map fun i => .cfgInPu (.btn i)) 0) ∧
  (∀ s : State, exec .gClear s = .next { s with scr := 0#12, bitcnt := 0#4, phase := .gSmp })

/-- G_SMP samples the line `BTN<BITCNT>`; `L` sets that bit of `SCR` and `H` writes nothing; the eighth line is the last (R162). -/
def Obligations.DirectSampleSetsOneBit : Prop :=
  ∀ (s : State) (i : Fin 8), s.bitcnt.toNat = i.val → variantOf s = .gpio →
    s.mode.get (.btn i) = .inp ∨ s.mode.get (.btn i) = .inpPullUp →
    ∃ l v w, exec .gSmp s = .next { s with
          scr := v, bitcnt := BitVec.ofNat 4 (i.val + 1), phase := if i.val < 7 then .gSmp else .gDone, world := w } ∧
      JoinsBit s.scr v i.val (l == .L) ∧ Happened s.world w [.smp (.btn i) l] 1 ∧ AnswerOf s (.btn i) l

/-- G_DONE gives `MASK` the low eight bits of `SCR`, with no remapping and no pin event, and goes to RESPOND; the rule's example
(R163). -/
def Obligations.DirectDoneMapsOneToOne : Prop :=
  (∀ s : State, ∃ m, exec .gDone s = .next { s with mask := m, phase := .respond } ∧ (∀ k < 8, m.getLsbD k = s.scr.getLsbD k)) ∧
  (∀ s : State, s.scr = 0x0A5#12 → exec .gDone s = .next { s with mask := 0xA5#8, phase := .respond })

/-- A whole direct poll, from DISPATCH to the response in 12 steps: eight samples, `BTN0` first, no other pin event; bit `i` of the
mask is set exactly when line `i` was sampled `L`, and the response is that mask or its test against `ARG` (R128, R129, R130,
R164; decisions D3, D8). -/
def Obligations.DirectPollReadsTheEightLines : Prop :=
  ∀ s : State, Inv s → s.port.rst = false → s.phase = .dispatch → s.op ≠ .init → variantOf s = .gpio →
    ∃ (t : State) (l : Fin 8 → Level), Runs 12 s t ∧ t.phase = .idle ∧
      Happened s.world t.world ((List.finRange 8).map fun i => .smp (.btn i) (l i)) 8 ∧
      (∀ (i : Fin 8) (a : Level), s.world.env[i.val]? = some (some a) → l i = a) ∧
      (∀ i : Fin 8, s.world.env[i.val]? = some none → l i = .H) ∧
      (∀ i : Fin 8, t.mask.getLsbD i.val = (l i == .L)) ∧
      (s.op = .read → rspMask t = some t.mask) ∧ (s.op = .ispressed → rspBool t = some (t.mask &&& s.arg != 0#8)) ∧
      t.mode = s.mode ∧ t.outlvl = s.outlvl

/-! ### The shift-register reader -/

/-- S_INIT configures `LATCH`, `CLOCK` and `DATA` and drives the rest levels, in five events, with no sample and no pulse (R170;
decisions D5, D7). -/
def Obligations.ShiftInitRestsTheLines : Prop :=
  ∀ s : State, variantOf s = .nes ∨ variantOf s = .snes →
    ∃ w, exec .sInit s = .next { s with
          mode := ((s.mode.put .latch .out).put .clock .out).put .data .inp,
          outlvl := (s.outlvl.put .latch (some .L)).put .clock (some .H), phase := .respond, world := w } ∧
      Happened s.world w [.cfgOut .latch, .cfgOut .clock, .cfgIn .data, .drv .latch .L, .drv .clock .H] 0

/-- S_LATCH_HI starts a fresh scratch value and raises `LATCH` for at least `T_LATCH`, 12 microseconds or more (R171). `CLOCK` keeps
its level, which in a state of the invariant is `H`. -/
def Obligations.ShiftLatchHighHoldsTheLatch : Prop :=
  ∀ s : State, variantOf s = .nes ∨ variantOf s = .snes → s.mode.get .latch = .out → s.cfg.timing.AtLeastLiterals →
    ∃ w, exec .sLatchHi s = .next { s with
          scr := 0#12, bitcnt := 0#4, outlvl := s.outlvl.put .latch (some .H), phase := .sLatchLo, world := w } ∧
      Happened s.world w [.drv .latch .H, .dly s.cfg.timing.tLatch] 0 ∧
      12 ≤ s.cfg.timing.tLatch ∧ s.world.now + s.cfg.timing.tLatch ≤ w.now ∧
      (Inv s → s.phase = .sLatchHi → s.outlvl.get .clock = some .H)

/-- S_LATCH_LO lowers `LATCH` and waits at least `T_SETTLE`, 6 microseconds or more (R172). -/
def Obligations.ShiftLatchLowSettles : Prop :=
  ∀ s : State, variantOf s = .nes ∨ variantOf s = .snes → s.mode.get .latch = .out → s.cfg.timing.AtLeastLiterals →
    ∃ w, exec .sLatchLo s = .next { s with outlvl := s.outlvl.put .latch (some .L), phase := .sSample, world := w } ∧
      Happened s.world w [.drv .latch .L, .dly s.cfg.timing.tSettle] 0 ∧
      6 ≤ s.cfg.timing.tSettle ∧ s.world.now + s.cfg.timing.tSettle ≤ w.now

/-- S_SAMPLE samples `DATA` once; `L` sets bit `BITCNT` of `SCR` and `H` writes nothing (R173). -/
def Obligations.ShiftSampleSetsOneBit : Prop :=
  ∀ s : State, variantOf s = .nes ∨ variantOf s = .snes → s.mode.get .data = .inp → s.bitcnt.toNat < 12 →
    ∃ l v w, exec .sSample s = .next { s with scr := v, phase := .sClkLo, world := w } ∧
      JoinsBit s.scr v s.bitcnt.toNat (l == .L) ∧ Happened s.world w [.smp .data l] 1 ∧ AnswerOf s .data l

/-- S_CLK_LO lowers `CLOCK` and holds it at least `T_CLK_LO`, 6 microseconds or more (R174). -/
def Obligations.ShiftClockLowHolds : Prop :=
  ∀ s : State, variantOf s = .nes ∨ variantOf s = .snes → s.mode.get .clock = .out → s.cfg.timing.AtLeastLiterals →
    ∃ w, exec .sClkLo s = .next { s with outlvl := s.outlvl.put .clock (some .L), phase := .sClkHi, world := w } ∧
      Happened s.world w [.drv .clock .L, .dly s.cfg.timing.tClkLo] 0 ∧
      6 ≤ s.cfg.timing.tClkLo ∧ s.world.now + s.cfg.timing.tClkLo ≤ w.now

/-- S_CLK_HI raises `CLOCK`, holds it at least `T_CLK_HI`, after the last bit too, and goes to the next bit or, after bit `N - 1`, to
the remap; `N` is 8 for NES and 12 for SNES (R8, R175). -/
def Obligations.ShiftClockHighAdvances : Prop :=
  ∀ (s : State) (n : Nat), (variantOf s = .nes ∧ n = 8) ∨ (variantOf s = .snes ∧ n = 12) → s.mode.get .clock = .out →
    s.cfg.timing.AtLeastLiterals → s.bitcnt.toNat < n →
    ∃ w, exec .sClkHi s = .next { s with
          outlvl := s.outlvl.put .clock (some .H), bitcnt := BitVec.ofNat 4 (s.bitcnt.toNat + 1),
          phase := if s.bitcnt.toNat + 1 < n then .sSample else .sRemap, world := w } ∧
      Happened s.world w [.drv .clock .H, .dly s.cfg.timing.tClkHi] 0 ∧
      6 ≤ s.cfg.timing.tClkHi ∧ s.world.now + s.cfg.timing.tClkHi ≤ w.now

/-- S_REMAP gives `MASK` the remapped scratch value, by variant, with no pin event (R176 to R178; decision D3). REMAP_NES is the
identity on eight bits, as REMAP_GPIO is; REMAP_NES, REMAP_GPIO and REMAP_SNES as operations write `MASK` and nothing else (DEDUCED,
log 15). -/
def Obligations.ShiftRemapByVariant : Prop :=
  (∀ s : State, variantOf s = .nes →
    ∃ m, exec .sRemap s = .next { s with mask := m, phase := .respond } ∧ ∀ k < 8, m.getLsbD k = s.scr.getLsbD k) ∧
  (∀ s : State, variantOf s = .snes →
    ∃ m, exec .sRemap s = .next { s with mask := m, phase := .respond } ∧ exec (.remapSnes s.scr) s = .next { s with mask := m }) ∧
  (∀ (s : State) (v : BitVec 8), exec (.remapNes v) s = .next { s with mask := v } ∧ exec (.remapGpio v) s = .next { s with mask := v })

/-- REMAP_SNES (R178): bits 2 to 7 pass through; A is direct A or extra A or extra R, B is direct B or extra B or extra L; with the low
eight bits 0 the result is at most 3; and the rule's two examples. As an operation it writes `MASK` and nothing else (DEDUCED, log
15). -/
def Obligations.SnesFoldTable : Prop :=
  ∀ (s : State) (v : BitVec 12), ∃ m : Byte, exec (.remapSnes v) s = .next { s with mask := m } ∧
    (∀ k < 8, 2 ≤ k → m.getLsbD k = v.getLsbD k) ∧
    m.getLsbD 0 = (v.getLsbD 0 || v.getLsbD 8 || v.getLsbD 11) ∧
    m.getLsbD 1 = (v.getLsbD 1 || v.getLsbD 9 || v.getLsbD 10) ∧
    ((∀ k < 8, v.getLsbD k = false) → m.toNat ≤ 3) ∧
    (v = 0x400#12 → m = 0x02#8) ∧ (v = 0x802#12 → m = 0x03#8)

/-- A whole shift poll, from DISPATCH to the response in 5 + 3N steps: the pin events of R179 in order with every hold, bit `k` of the
frame being the `k`-th sample; for NES the mask is the frame, for SNES the fold of R178; the lines rest as before; at least the
sum of the holds passes (R128 to R130, R177 to R179, R291; decision D3). -/
def Obligations.ShiftPollReadsTheFrame : Prop :=
  ∀ (s : State) (n : Nat), Inv s → s.port.rst = false → s.phase = .dispatch → s.op ≠ .init → s.cfg.timing.AtLeastLiterals →
    (variantOf s = .nes ∧ n = 8) ∨ (variantOf s = .snes ∧ n = 12) →
    ∃ (t : State) (l : Nat → Level), Runs (5 + 3 * n) s t ∧ t.phase = .idle ∧
      Happened s.world t.world (shiftPollEvents s.cfg.timing n l) n ∧
      (∀ k < n, ∀ a, s.world.env[k]? = some (some a) → l k = a) ∧
      (n = 8 → ∀ k < 8, t.mask.getLsbD k = (l k == .L)) ∧
      (n = 12 → (∀ k < 8, 2 ≤ k → t.mask.getLsbD k = (l k == .L)) ∧
        t.mask.getLsbD 0 = (l 0 == .L || l 8 == .L || l 11 == .L) ∧
        t.mask.getLsbD 1 = (l 1 == .L || l 9 == .L || l 10 == .L)) ∧
      (s.op = .read → rspMask t = some t.mask) ∧ (s.op = .ispressed → rspBool t = some (t.mask &&& s.arg != 0#8)) ∧
      t.mode = s.mode ∧ t.outlvl.get .latch = some .L ∧ t.outlvl.get .clock = some .H ∧
      s.world.now + 18 + 12 * n ≤ t.world.now

/-! ### The serial reader -/

/-- P_INIT configures the four lines, drives attention inactive and clock and command high, and starts the priming exchange (R201;
decisions D6, D7). -/
def Obligations.SerialInitRestsTheLines : Prop :=
  ∀ s : State, variantOf s = .psx →
    ∃ w, exec .pInit s = .next { s with
          mode := (((s.mode.put .att .out).put .clk .out).put .cmd .out).put .dat .inp,
          outlvl := ((s.outlvl.put .att (some .H)).put .clk (some .H)).put .cmd (some .H),
          prime := true, framecnt := 0#2, phase := .pSettle, world := w } ∧
      Happened s.world w
        [.cfgOut .att, .cfgOut .clk, .cfgOut .cmd, .cfgIn .dat, .drv .att .H, .drv .clk .H, .drv .cmd .H] 0

/-- P_SETTLE waits at least `T_ATT` with no line touched (R202; decision D9), and P_ATT_LO asserts attention and starts the frame at
byte 0 with no delay (R203). -/
def Obligations.SerialFrameStartsWithAttention : Prop :=
  (∀ s : State, s.cfg.timing.AtLeastLiterals →
    ∃ w, exec .pSettle s = .next { s with phase := .pAttLo, world := w } ∧
      Happened s.world w [.dly s.cfg.timing.tAtt] 0 ∧ 2 ≤ s.cfg.timing.tAtt ∧ s.world.now + s.cfg.timing.tAtt ≤ w.now) ∧
  (∀ s : State, variantOf s = .psx → s.mode.get .att = .out →
    ∃ w, exec .pAttLo s = .next { s with outlvl := s.outlvl.put .att (some .L), bytecnt := 0#3, phase := .pLoad, world := w } ∧
      Happened s.world w [.drv .att .L] 0)

/-- P_LOAD loads the byte to send, `0x00` in a priming frame and else the header byte `BYTECNT` of `01 42 FF FF FF`, clears `RX` and
`BITCNT`, and touches no pin (R204, R216; decisions D3, D12); past the fifth byte there is none (log 12). -/
def Obligations.SerialLoadPicksTheByte : Prop :=
  (∀ s : State, s.prime = true → exec .pLoad s = .next { s with tx := 0x00#8, rx := 0#8, bitcnt := 0#4, phase := .xCmd }) ∧
  (∀ s : State, s.prime = false →
    (s.bytecnt = 0#3 → exec .pLoad s = .next { s with tx := 0x01#8, rx := 0#8, bitcnt := 0#4, phase := .xCmd }) ∧
    (s.bytecnt = 1#3 → exec .pLoad s = .next { s with tx := 0x42#8, rx := 0#8, bitcnt := 0#4, phase := .xCmd }) ∧
    (2 ≤ s.bytecnt.toNat → s.bytecnt.toNat ≤ 4 →
      exec .pLoad s = .next { s with tx := 0xFF#8, rx := 0#8, bitcnt := 0#4, phase := .xCmd }) ∧
    (5 ≤ s.bytecnt.toNat → exec .pLoad s = .fault .noSuchFrameByte))

/-- X_CMD drives `CMD` to bit `BITCNT` of `TX`, `H` for 1, whether or not the level changes (R205; decision D13). X_CLK_LO lowers `CLK`
and keeps the open hold, which at 0 is no event (R206; decision D10; the time is log 5). -/
def Obligations.SerialBitGoesOut : Prop :=
  (∀ s : State, variantOf s = .psx → s.mode.get .cmd = .out → s.bitcnt.toNat < 8 →
    ∃ v w, exec .xCmd s = .next { s with outlvl := s.outlvl.put .cmd (some v), phase := .xClkLo, world := w } ∧
      (v = .H ↔ s.tx.getLsbD s.bitcnt.toNat = true) ∧ Happened s.world w [.drv .cmd v] 0) ∧
  (∀ s : State, variantOf s = .psx → s.mode.get .clk = .out →
    ∃ w, exec .xClkLo s = .next { s with outlvl := s.outlvl.put .clk (some .L), phase := .xClkHi, world := w } ∧
      Happened s.world w (.drv .clk .L :: holdEvents s.cfg.timing.tXclkLo) 0 ∧ s.world.now + s.cfg.timing.tXclkLo ≤ w.now)

/-- X_CLK_HI raises `CLK` and then samples `DAT`, with nothing between; `L` sets bit `BITCNT` of `RX` and `H` writes nothing (R207). -/
def Obligations.SerialBitComesIn : Prop :=
  ∀ s : State, variantOf s = .psx → s.mode.get .clk = .out → s.mode.get .dat = .inp → s.bitcnt.toNat < 8 →
    ∃ l v w, exec .xClkHi s = .next { s with outlvl := s.outlvl.put .clk (some .H), rx := v, phase := .xHold, world := w } ∧
      JoinsBit s.rx v s.bitcnt.toNat (l == .L) ∧ Happened s.world w [.drv .clk .H, .smp .dat l] 1 ∧ AnswerOf s .dat l

/-- X_HOLD holds at least `T_BIT` after every bit, the eighth included, and goes to the next bit or to P_STORE (R208; decision D11). -/
def Obligations.SerialBitHoldAdvances : Prop :=
  ∀ s : State, s.cfg.timing.AtLeastLiterals → s.bitcnt.toNat < 8 →
    ∃ w, exec .xHold s = .next { s with
          bitcnt := BitVec.ofNat 4 (s.bitcnt.toNat + 1), phase := if s.bitcnt.toNat < 7 then .xCmd else .pStore, world := w } ∧
      Happened s.world w [.dly s.cfg.timing.tBit] 0 ∧ 10 ≤ s.cfg.timing.tBit ∧ s.world.now + s.cfg.timing.tBit ≤ w.now

/-- P_STORE keeps the received byte at index `BYTECNT` and no other, and goes to the next byte, or to the end of the frame after byte 0
of a priming frame and byte 4 of a poll frame (R69, R209; decision D14). -/
def Obligations.SerialStoreKeepsTheByte : Prop :=
  ∀ s : State, s.bytecnt.toNat < 5 →
    ∃ b, exec .pStore s = .next { s with
          rxbuf := b, bytecnt := BitVec.ofNat 3 (s.bytecnt.toNat + 1),
          phase := if s.prime = false ∧ s.bytecnt.toNat < 4 then .pLoad else .pAttHi } ∧
      ∀ j : Fin 5, b[j] = if j.val = s.bytecnt.toNat then s.rx else s.rxbuf[j]

/-- P_ATT_HI releases attention; in the priming exchange it counts the frame, goes back for a second one, and after it ends the
priming; in a poll it goes to the remap (R210). `FRAMECNT` counts from 0 to 2 (R31); past that no run goes (log 23). -/
def Obligations.SerialFrameEndsWithAttention : Prop :=
  ∀ s : State, variantOf s = .psx → s.mode.get .att = .out →
    ∃ w, Happened s.world w [.drv .att .H] 0 ∧
      (s.prime = true → s.framecnt = 0#2 →
        exec .pAttHi s = .next { s with outlvl := s.outlvl.put .att (some .H), framecnt := 1#2, phase := .pSettle, world := w }) ∧
      (s.prime = true → 1 ≤ s.framecnt.toNat → s.framecnt.toNat ≤ 2 →
        exec .pAttHi s = .next { s with
          outlvl := s.outlvl.put .att (some .H), framecnt := BitVec.ofNat 2 (s.framecnt.toNat + 1), prime := false,
          phase := .respond, world := w }) ∧
      (s.prime = false →
        exec .pAttHi s = .next { s with outlvl := s.outlvl.put .att (some .H), phase := .pRemap, world := w })

/-- P_REMAP assembles the field, low byte first received, from bytes 3 and 4 alone, and remaps the new field; the rule's example
(R211). REMAP_PSX as an operation writes `MASK` and nothing else (DEDUCED, log 15). -/
def Obligations.SerialRemapTakesTheLastTwoBytes : Prop :=
  (∀ s : State, ∃ f m, exec .pRemap s = .next { s with field := f, mask := m, phase := .respond } ∧
    (∀ k < 8, f.getLsbD k = s.rxbuf[3].getLsbD k ∧ f.getLsbD (8 + k) = s.rxbuf[4].getLsbD k) ∧
    exec (.remapPsx f) s = .next { s with mask := m }) ∧
  (∀ s : State, s.rxbuf[3] = 0x10#8 → s.rxbuf[4] = 0x40#8 →
    exec .pRemap s = .next { s with field := 0x4010#16, mask := 0x11#8, phase := .respond })

/-- REMAP_PSX (R212; decision D20): the six buttons pass through by name, and A and B are set exactly when the field meets `0x6A04`
and `0x9502`. As an operation it writes `MASK` and nothing else (DEDUCED, log 15). -/
def Obligations.SerialFoldTable : Prop :=
  ∀ (s : State) (f : BitVec 16), ∃ m : Byte, exec (.remapPsx f) s = .next { s with mask := m } ∧
    (m.getLsbD 0 = true ↔ f &&& 0x6A04#16 ≠ 0#16) ∧ (m.getLsbD 1 = true ↔ f &&& 0x9502#16 ≠ 0#16) ∧
    m.getLsbD 2 = f.getLsbD 0 ∧ m.getLsbD 3 = f.getLsbD 3 ∧ m.getLsbD 4 = f.getLsbD 4 ∧
    m.getLsbD 5 = f.getLsbD 6 ∧ m.getLsbD 6 = f.getLsbD 7 ∧ m.getLsbD 7 = f.getLsbD 5

/-- The bytes sent, each as one whole byte transfer: eight bit times with the pin events of R213, bit 0 first; bit `k` of the byte
received is set exactly when the `k`-th sample was `L`; `CMD` ends at bit 7 and `CLK` at `H`; nothing else changes (R95, R213, R215,
R216; decisions D10, D11, D13, log 14; the environment's answers are log 4, the 80 microseconds the time model's, log 5). -/
def Obligations.ByteTransferIsFullDuplex : Prop :=
  ∀ (s : State) (i : Instr) (b : Byte),
    (i, b) ∈ [(Instr.txStart, 0x01#8), (.txPoll, 0x42#8), (.txPad, 0xFF#8), (.txPrime, 0x00#8)] →
    variantOf s = .psx → s.mode.get .cmd = .out → s.mode.get .clk = .out → s.mode.get .dat = .inp →
    s.cfg.timing.AtLeastLiterals →
    ∃ (l : Nat → Level) (r : Byte) (w : World), exec i s = .next { s with
          tx := b, rx := r, bitcnt := 8#4,
          outlvl := (s.outlvl.put .cmd (some (if b.getLsbD 7 then .H else .L))).put .clk (some .H), world := w } ∧
      (∀ k < 8, r.getLsbD k = (l k == .L)) ∧
      Happened s.world w (xferEvents s.cfg.timing b l) 8 ∧
      (∀ k < 8, ∀ a, s.world.env[k]? = some (some a) → l k = a) ∧ s.world.now + 80 ≤ w.now

/-- The byte transfer is what the phases do: 33 steps from P_LOAD are the transfer of the byte P_LOAD picks, ending at P_STORE, or both
stop alike (R204 to R208, R213; decision D3, log 14; every step first drops `rsp_valid`, log 11). -/
def Obligations.PhasesRefineTheByteTransfer : Prop :=
  ∀ s : State, s.phase = .pLoad → s.port.rst = false →
    ∀ i, (s.prime = true ∧ i = Instr.txPrime) ∨ (s.prime = false ∧ s.bytecnt = 0#3 ∧ i = .txStart) ∨
      (s.prime = false ∧ s.bytecnt = 1#3 ∧ i = .txPoll) ∨
      (s.prime = false ∧ 2 ≤ s.bytecnt.toNat ∧ s.bytecnt.toNat ≤ 4 ∧ i = .txPad) →
    (∀ t, exec i { s with rspValid := false } = .next t → Runs 33 s { t with phase := .pStore }) ∧
    (∀ u, Runs 33 s u → ∃ t, exec i { s with rspValid := false } = .next t ∧ u = { t with phase := .pStore })

/-- A whole serial poll, from DISPATCH to the response in 176 steps: one frame of the five bytes `01 42 FF FF FF` with the pin events
of R214; field bit `k` is the sample 24 + k, so the header responses play no part, and the mask is the fold of R212; the lines rest
(R128 to R130, R211 to R214, R218; decisions D3, D9, D10, D11, D13, D14, D20). -/
def Obligations.SerialPollReadsTheField : Prop :=
  ∀ s : State, Inv s → s.port.rst = false → s.phase = .dispatch → s.op ≠ .init → variantOf s = .psx →
    s.cfg.timing.AtLeastLiterals →
    ∃ (t : State) (l : Nat → Level) (f : Nat → Bool), Runs 176 s t ∧ t.phase = .idle ∧
      Happened s.world t.world (frameEvents s.cfg.timing [0x01#8, 0x42#8, 0xFF#8, 0xFF#8, 0xFF#8] l) 40 ∧
      (∀ k < 40, ∀ a, s.world.env[k]? = some (some a) → l k = a) ∧
      (∀ k < 16, f k = (l (24 + k) == .L) ∧ t.field.getLsbD k = f k) ∧
      t.mask.getLsbD 0 = (f 11 || f 9 || f 2 || f 14 || f 13) ∧ t.mask.getLsbD 1 = (f 10 || f 8 || f 1 || f 15 || f 12) ∧
      t.mask.getLsbD 2 = f 0 ∧ t.mask.getLsbD 3 = f 3 ∧ t.mask.getLsbD 4 = f 4 ∧ t.mask.getLsbD 5 = f 6 ∧
      t.mask.getLsbD 6 = f 7 ∧ t.mask.getLsbD 7 = f 5 ∧
      (s.op = .read → rspMask t = some t.mask) ∧ (s.op = .ispressed → rspBool t = some (t.mask &&& s.arg != 0#8)) ∧
      t.mode = s.mode ∧ t.outlvl.get .att = some .H ∧ t.outlvl.get .clk = some .H ∧ t.outlvl.get .cmd = some .H ∧
      s.world.now + 402 ≤ t.world.now

/-- INIT as a whole, from DISPATCH to the response: for GPIO, NES and SNES 3 steps; for PSX 77, with two priming frames of one zero
byte; the pins end as R61 says and at rest, and `MASK` and `FIELD` are not written (R44, R127, R130, R201, R215; decisions D3, D5, D6,
D9 to D13; the 16 answers are log 4, the 164 microseconds log 5, `rsp_valid` seen in the IDLE state at the end log 11). -/
def Obligations.InitLeavesTheReaderReady : Prop :=
  ∀ s : State, Inv s → s.port.rst = false → s.phase = .dispatch → s.op = .init → configured s = true →
    s.cfg.timing.AtLeastLiterals →
    ∃ t : State, t.phase = .idle ∧ t.rspValid = true ∧ t.inited = true ∧ t.mask = s.mask ∧ t.field = s.field ∧
      (∀ p : Role, t.mode.get p = if hasRole s p then p.initMode else .unconfigured) ∧
      (variantOf s = .gpio → Runs 3 s t ∧ t.outlvl = s.outlvl) ∧
      (variantOf s = .nes ∨ variantOf s = .snes →
        Runs 3 s t ∧ t.outlvl.get .latch = some .L ∧ t.outlvl.get .clock = some .H) ∧
      (variantOf s = .psx →
        Runs 77 s t ∧ t.prime = false ∧ t.framecnt = 2#2 ∧
          t.outlvl.get .att = some .H ∧ t.outlvl.get .clk = some .H ∧ t.outlvl.get .cmd = some .L ∧
          s.world.now + 164 ≤ t.world.now ∧
          ∃ l : Nat → Level, Happened s.world t.world
            ([.cfgOut .att, .cfgOut .clk, .cfgOut .cmd, .cfgIn .dat, .drv .att .H, .drv .clk .H, .drv .cmd .H] ++
              frameEvents s.cfg.timing [0x00#8] l ++ frameEvents s.cfg.timing [0x00#8] fun k => l (8 + k)) 16)

/-- Polls are independent: two polls of instances configured alike, in states of the invariant that may differ in every register, the
trace and the time, and whose environments drive the same levels, give the same mask (R65, R131, R132; decision D3; the environment's
answers are log 4). -/
def Obligations.PollsDependOnTheirSamplesOnly : Prop :=
  ∀ s₁ s₂ t₁ t₂ : State, ∀ ls : List Level, Inv s₁ → Inv s₂ → s₁.port.rst = false → s₂.port.rst = false →
    s₁.phase = .dispatch → s₂.phase = .dispatch → s₁.op ≠ .init → s₂.op ≠ .init →
    variantOf s₁ = variantOf s₂ → s₁.cfg.timing.AtLeastLiterals → s₂.cfg.timing.AtLeastLiterals → 40 ≤ ls.length →
    ls.map some <+: s₁.world.env → ls.map some <+: s₂.world.env →
    Runs (stepsLeft s₁) s₁ t₁ → Runs (stepsLeft s₂) s₂ t₂ → t₁.mask = t₂.mask
end

