-- ==== Sys2Proof/Laws/State.lean ====
section
/-!
SUPPORT. What each named update leaves in each field of the state.
-/

namespace Sys2Proof.Machine

@[simp] theorem emit_cfg (e : Event) (s : State) : (emit e s).cfg = s.cfg := rfl
@[simp] theorem emit_released (e : Event) (s : State) : (emit e s).released = s.released := rfl
@[simp] theorem emit_phase (e : Event) (s : State) : (emit e s).phase = s.phase := rfl
@[simp] theorem emit_scr (e : Event) (s : State) : (emit e s).scr = s.scr := rfl
@[simp] theorem emit_tx (e : Event) (s : State) : (emit e s).tx = s.tx := rfl
@[simp] theorem emit_rx (e : Event) (s : State) : (emit e s).rx = s.rx := rfl
@[simp] theorem emit_rxbuf (e : Event) (s : State) : (emit e s).rxbuf = s.rxbuf := rfl
@[simp] theorem emit_field (e : Event) (s : State) : (emit e s).field = s.field := rfl
@[simp] theorem emit_mask (e : Event) (s : State) : (emit e s).mask = s.mask := rfl
@[simp] theorem emit_bool (e : Event) (s : State) : (emit e s).bool = s.bool := rfl
@[simp] theorem emit_op (e : Event) (s : State) : (emit e s).op = s.op := rfl
@[simp] theorem emit_arg (e : Event) (s : State) : (emit e s).arg = s.arg := rfl
@[simp] theorem emit_bitcnt (e : Event) (s : State) : (emit e s).bitcnt = s.bitcnt := rfl
@[simp] theorem emit_bytecnt (e : Event) (s : State) : (emit e s).bytecnt = s.bytecnt := rfl
@[simp] theorem emit_framecnt (e : Event) (s : State) : (emit e s).framecnt = s.framecnt := rfl
@[simp] theorem emit_prime (e : Event) (s : State) : (emit e s).prime = s.prime := rfl
@[simp] theorem emit_inited (e : Event) (s : State) : (emit e s).inited = s.inited := rfl
@[simp] theorem emit_fault (e : Event) (s : State) : (emit e s).fault = s.fault := rfl
@[simp] theorem emit_mode (e : Event) (s : State) : (emit e s).mode = s.mode := rfl
@[simp] theorem emit_outlvl (e : Event) (s : State) : (emit e s).outlvl = s.outlvl := rfl
@[simp] theorem emit_port (e : Event) (s : State) : (emit e s).port = s.port := rfl
@[simp] theorem emit_rspValid (e : Event) (s : State) : (emit e s).rspValid = s.rspValid := rfl
@[simp] theorem emit_world (e : Event) (s : State) : (emit e s).world = s.world.emit e := rfl

@[simp] theorem delay_cfg (t : Nat) (s : State) : (delay t s).cfg = s.cfg := rfl
@[simp] theorem delay_released (t : Nat) (s : State) : (delay t s).released = s.released := rfl
@[simp] theorem delay_phase (t : Nat) (s : State) : (delay t s).phase = s.phase := rfl
@[simp] theorem delay_scr (t : Nat) (s : State) : (delay t s).scr = s.scr := rfl
@[simp] theorem delay_tx (t : Nat) (s : State) : (delay t s).tx = s.tx := rfl
@[simp] theorem delay_rx (t : Nat) (s : State) : (delay t s).rx = s.rx := rfl
@[simp] theorem delay_rxbuf (t : Nat) (s : State) : (delay t s).rxbuf = s.rxbuf := rfl
@[simp] theorem delay_field (t : Nat) (s : State) : (delay t s).field = s.field := rfl
@[simp] theorem delay_mask (t : Nat) (s : State) : (delay t s).mask = s.mask := rfl
@[simp] theorem delay_bool (t : Nat) (s : State) : (delay t s).bool = s.bool := rfl
@[simp] theorem delay_op (t : Nat) (s : State) : (delay t s).op = s.op := rfl
@[simp] theorem delay_arg (t : Nat) (s : State) : (delay t s).arg = s.arg := rfl
@[simp] theorem delay_bitcnt (t : Nat) (s : State) : (delay t s).bitcnt = s.bitcnt := rfl
@[simp] theorem delay_bytecnt (t : Nat) (s : State) : (delay t s).bytecnt = s.bytecnt := rfl
@[simp] theorem delay_framecnt (t : Nat) (s : State) : (delay t s).framecnt = s.framecnt := rfl
@[simp] theorem delay_prime (t : Nat) (s : State) : (delay t s).prime = s.prime := rfl
@[simp] theorem delay_inited (t : Nat) (s : State) : (delay t s).inited = s.inited := rfl
@[simp] theorem delay_fault (t : Nat) (s : State) : (delay t s).fault = s.fault := rfl
@[simp] theorem delay_mode (t : Nat) (s : State) : (delay t s).mode = s.mode := rfl
@[simp] theorem delay_outlvl (t : Nat) (s : State) : (delay t s).outlvl = s.outlvl := rfl
@[simp] theorem delay_port (t : Nat) (s : State) : (delay t s).port = s.port := rfl
@[simp] theorem delay_rspValid (t : Nat) (s : State) : (delay t s).rspValid = s.rspValid := rfl
@[simp] theorem delay_world (t : Nat) (s : State) : (delay t s).world = s.world.delay t := rfl

@[simp] theorem dropResponse_cfg (s : State) : (dropResponse s).cfg = s.cfg := rfl
@[simp] theorem dropResponse_released (s : State) : (dropResponse s).released = s.released := rfl
@[simp] theorem dropResponse_phase (s : State) : (dropResponse s).phase = s.phase := rfl
@[simp] theorem dropResponse_scr (s : State) : (dropResponse s).scr = s.scr := rfl
@[simp] theorem dropResponse_tx (s : State) : (dropResponse s).tx = s.tx := rfl
@[simp] theorem dropResponse_rx (s : State) : (dropResponse s).rx = s.rx := rfl
@[simp] theorem dropResponse_rxbuf (s : State) : (dropResponse s).rxbuf = s.rxbuf := rfl
@[simp] theorem dropResponse_field (s : State) : (dropResponse s).field = s.field := rfl
@[simp] theorem dropResponse_mask (s : State) : (dropResponse s).mask = s.mask := rfl
@[simp] theorem dropResponse_bool (s : State) : (dropResponse s).bool = s.bool := rfl
@[simp] theorem dropResponse_op (s : State) : (dropResponse s).op = s.op := rfl
@[simp] theorem dropResponse_arg (s : State) : (dropResponse s).arg = s.arg := rfl
@[simp] theorem dropResponse_bitcnt (s : State) : (dropResponse s).bitcnt = s.bitcnt := rfl
@[simp] theorem dropResponse_bytecnt (s : State) : (dropResponse s).bytecnt = s.bytecnt := rfl
@[simp] theorem dropResponse_framecnt (s : State) : (dropResponse s).framecnt = s.framecnt := rfl
@[simp] theorem dropResponse_prime (s : State) : (dropResponse s).prime = s.prime := rfl
@[simp] theorem dropResponse_inited (s : State) : (dropResponse s).inited = s.inited := rfl
@[simp] theorem dropResponse_fault (s : State) : (dropResponse s).fault = s.fault := rfl
@[simp] theorem dropResponse_mode (s : State) : (dropResponse s).mode = s.mode := rfl
@[simp] theorem dropResponse_outlvl (s : State) : (dropResponse s).outlvl = s.outlvl := rfl
@[simp] theorem dropResponse_port (s : State) : (dropResponse s).port = s.port := rfl
@[simp] theorem dropResponse_rspValid (s : State) : (dropResponse s).rspValid = false := rfl
@[simp] theorem dropResponse_world (s : State) : (dropResponse s).world = s.world := rfl

@[simp] theorem loadByte_cfg (b : Byte) (s : State) : (loadByte b s).cfg = s.cfg := rfl
@[simp] theorem loadByte_released (b : Byte) (s : State) : (loadByte b s).released = s.released := rfl
@[simp] theorem loadByte_phase (b : Byte) (s : State) : (loadByte b s).phase = s.phase := rfl
@[simp] theorem loadByte_scr (b : Byte) (s : State) : (loadByte b s).scr = s.scr := rfl
@[simp] theorem loadByte_tx (b : Byte) (s : State) : (loadByte b s).tx = b := rfl
@[simp] theorem loadByte_rx (b : Byte) (s : State) : (loadByte b s).rx = 0#8 := rfl
@[simp] theorem loadByte_rxbuf (b : Byte) (s : State) : (loadByte b s).rxbuf = s.rxbuf := rfl
@[simp] theorem loadByte_field (b : Byte) (s : State) : (loadByte b s).field = s.field := rfl
@[simp] theorem loadByte_mask (b : Byte) (s : State) : (loadByte b s).mask = s.mask := rfl
@[simp] theorem loadByte_bool (b : Byte) (s : State) : (loadByte b s).bool = s.bool := rfl
@[simp] theorem loadByte_op (b : Byte) (s : State) : (loadByte b s).op = s.op := rfl
@[simp] theorem loadByte_arg (b : Byte) (s : State) : (loadByte b s).arg = s.arg := rfl
@[simp] theorem loadByte_bitcnt (b : Byte) (s : State) : (loadByte b s).bitcnt = 0#4 := rfl
@[simp] theorem loadByte_bytecnt (b : Byte) (s : State) : (loadByte b s).bytecnt = s.bytecnt := rfl
@[simp] theorem loadByte_framecnt (b : Byte) (s : State) : (loadByte b s).framecnt = s.framecnt := rfl
@[simp] theorem loadByte_prime (b : Byte) (s : State) : (loadByte b s).prime = s.prime := rfl
@[simp] theorem loadByte_inited (b : Byte) (s : State) : (loadByte b s).inited = s.inited := rfl
@[simp] theorem loadByte_fault (b : Byte) (s : State) : (loadByte b s).fault = s.fault := rfl
@[simp] theorem loadByte_mode (b : Byte) (s : State) : (loadByte b s).mode = s.mode := rfl
@[simp] theorem loadByte_outlvl (b : Byte) (s : State) : (loadByte b s).outlvl = s.outlvl := rfl
@[simp] theorem loadByte_port (b : Byte) (s : State) : (loadByte b s).port = s.port := rfl
@[simp] theorem loadByte_rspValid (b : Byte) (s : State) : (loadByte b s).rspValid = s.rspValid := rfl
@[simp] theorem loadByte_world (b : Byte) (s : State) : (loadByte b s).world = s.world := rfl

theorem present_ready {s : State} (h : cmdReady s = true) (o : BitVec 2) (a : Byte) :
    s.present o a = { s with port := { s.port with cmdValid := true, cmdOp := o, cmdArg := a } } := if_pos h
theorem present_busy {s : State} (h : cmdReady s = false) (o : BitVec 2) (a : Byte) : s.present o a = s := by
  simp [State.present, h]
@[simp] theorem present_rst (o : BitVec 2) (a : Byte) (s : State) : (s.present o a).port.rst = s.port.rst := by
  unfold State.present; split <;> rfl
@[simp] theorem present_cfg (o : BitVec 2) (a : Byte) (s : State) : (s.present o a).cfg = s.cfg := by
  unfold State.present; split <;> rfl
@[simp] theorem present_released (o : BitVec 2) (a : Byte) (s : State) : (s.present o a).released = s.released := by
  unfold State.present; split <;> rfl
@[simp] theorem present_phase (o : BitVec 2) (a : Byte) (s : State) : (s.present o a).phase = s.phase := by
  unfold State.present; split <;> rfl
@[simp] theorem present_scr (o : BitVec 2) (a : Byte) (s : State) : (s.present o a).scr = s.scr := by
  unfold State.present; split <;> rfl
@[simp] theorem present_tx (o : BitVec 2) (a : Byte) (s : State) : (s.present o a).tx = s.tx := by
  unfold State.present; split <;> rfl
@[simp] theorem present_rx (o : BitVec 2) (a : Byte) (s : State) : (s.present o a).rx = s.rx := by
  unfold State.present; split <;> rfl
@[simp] theorem present_rxbuf (o : BitVec 2) (a : Byte) (s : State) : (s.present o a).rxbuf = s.rxbuf := by
  unfold State.present; split <;> rfl
@[simp] theorem present_field (o : BitVec 2) (a : Byte) (s : State) : (s.present o a).field = s.field := by
  unfold State.present; split <;> rfl
@[simp] theorem present_mask (o : BitVec 2) (a : Byte) (s : State) : (s.present o a).mask = s.mask := by
  unfold State.present; split <;> rfl
@[simp] theorem present_bool (o : BitVec 2) (a : Byte) (s : State) : (s.present o a).bool = s.bool := by
  unfold State.present; split <;> rfl
@[simp] theorem present_op (o : BitVec 2) (a : Byte) (s : State) : (s.present o a).op = s.op := by
  unfold State.present; split <;> rfl
@[simp] theorem present_arg (o : BitVec 2) (a : Byte) (s : State) : (s.present o a).arg = s.arg := by
  unfold State.present; split <;> rfl
@[simp] theorem present_bitcnt (o : BitVec 2) (a : Byte) (s : State) : (s.present o a).bitcnt = s.bitcnt := by
  unfold State.present; split <;> rfl
@[simp] theorem present_bytecnt (o : BitVec 2) (a : Byte) (s : State) : (s.present o a).bytecnt = s.bytecnt := by
  unfold State.present; split <;> rfl
@[simp] theorem present_framecnt (o : BitVec 2) (a : Byte) (s : State) : (s.present o a).framecnt = s.framecnt := by
  unfold State.present; split <;> rfl
@[simp] theorem present_prime (o : BitVec 2) (a : Byte) (s : State) : (s.present o a).prime = s.prime := by
  unfold State.present; split <;> rfl
@[simp] theorem present_inited (o : BitVec 2) (a : Byte) (s : State) : (s.present o a).inited = s.inited := by
  unfold State.present; split <;> rfl
@[simp] theorem present_fault (o : BitVec 2) (a : Byte) (s : State) : (s.present o a).fault = s.fault := by
  unfold State.present; split <;> rfl
@[simp] theorem present_mode (o : BitVec 2) (a : Byte) (s : State) : (s.present o a).mode = s.mode := by
  unfold State.present; split <;> rfl
@[simp] theorem present_outlvl (o : BitVec 2) (a : Byte) (s : State) : (s.present o a).outlvl = s.outlvl := by
  unfold State.present; split <;> rfl
@[simp] theorem present_rspValid (o : BitVec 2) (a : Byte) (s : State) : (s.present o a).rspValid = s.rspValid := by
  unfold State.present; split <;> rfl
@[simp] theorem present_world (o : BitVec 2) (a : Byte) (s : State) : (s.present o a).world = s.world := by
  unfold State.present; split <;> rfl

theorem setRst_of_reset {b : Bool} {s : State} (h : s.port.rst = true ∨ b = true) :
    s.setRst b = { applyReset s with released := s.released || !s.port.rst || !b, port := { s.port with rst := b } } := by
  have : (s.port.rst || b) = true := by simpa using h
  simp [State.setRst, this]
theorem setRst_of_running {s : State} (h : s.port.rst = false) : s.setRst false = { s with released := true } := by
  have : { s.port with rst := false } = s.port := by rw [← h]
  simp [State.setRst, h, this]
@[simp] theorem setRst_cfg (b : Bool) (s : State) : (s.setRst b).cfg = s.cfg := by
  unfold State.setRst; dsimp only; split <;> rfl
@[simp] theorem setRst_released (b : Bool) (s : State) : (s.setRst b).released = (s.released || !s.port.rst || !b) := rfl
@[simp] theorem setRst_phase (b : Bool) (s : State) :
    (s.setRst b).phase = if s.port.rst || b then .idle else s.phase := by
  unfold State.setRst; dsimp only; split <;> rfl
@[simp] theorem setRst_scr (b : Bool) (s : State) :
    (s.setRst b).scr = if s.port.rst || b then 0#12 else s.scr := by
  unfold State.setRst; dsimp only; split <;> rfl
@[simp] theorem setRst_tx (b : Bool) (s : State) :
    (s.setRst b).tx = if s.port.rst || b then 0#8 else s.tx := by
  unfold State.setRst; dsimp only; split <;> rfl
@[simp] theorem setRst_rx (b : Bool) (s : State) :
    (s.setRst b).rx = if s.port.rst || b then 0#8 else s.rx := by
  unfold State.setRst; dsimp only; split <;> rfl
@[simp] theorem setRst_rxbuf (b : Bool) (s : State) :
    (s.setRst b).rxbuf = if s.port.rst || b then Vector.replicate 5 0#8 else s.rxbuf := by
  unfold State.setRst; dsimp only; split <;> rfl
@[simp] theorem setRst_field (b : Bool) (s : State) :
    (s.setRst b).field = if s.port.rst || b then 0#16 else s.field := by
  unfold State.setRst; dsimp only; split <;> rfl
@[simp] theorem setRst_mask (b : Bool) (s : State) :
    (s.setRst b).mask = if s.port.rst || b then 0#8 else s.mask := by
  unfold State.setRst; dsimp only; split <;> rfl
@[simp] theorem setRst_bool (b : Bool) (s : State) :
    (s.setRst b).bool = if s.port.rst || b then false else s.bool := by
  unfold State.setRst; dsimp only; split <;> rfl
@[simp] theorem setRst_op (b : Bool) (s : State) :
    (s.setRst b).op = if s.port.rst || b then .init else s.op := by
  unfold State.setRst; dsimp only; split <;> rfl
@[simp] theorem setRst_arg (b : Bool) (s : State) :
    (s.setRst b).arg = if s.port.rst || b then 0#8 else s.arg := by
  unfold State.setRst; dsimp only; split <;> rfl
@[simp] theorem setRst_bitcnt (b : Bool) (s : State) :
    (s.setRst b).bitcnt = if s.port.rst || b then 0#4 else s.bitcnt := by
  unfold State.setRst; dsimp only; split <;> rfl
@[simp] theorem setRst_bytecnt (b : Bool) (s : State) :
    (s.setRst b).bytecnt = if s.port.rst || b then 0#3 else s.bytecnt := by
  unfold State.setRst; dsimp only; split <;> rfl
@[simp] theorem setRst_framecnt (b : Bool) (s : State) :
    (s.setRst b).framecnt = if s.port.rst || b then 0#2 else s.framecnt := by
  unfold State.setRst; dsimp only; split <;> rfl
@[simp] theorem setRst_prime (b : Bool) (s : State) :
    (s.setRst b).prime = if s.port.rst || b then false else s.prime := by
  unfold State.setRst; dsimp only; split <;> rfl
@[simp] theorem setRst_inited (b : Bool) (s : State) :
    (s.setRst b).inited = if s.port.rst || b then false else s.inited := by
  unfold State.setRst; dsimp only; split <;> rfl
@[simp] theorem setRst_fault (b : Bool) (s : State) :
    (s.setRst b).fault = if s.port.rst || b then .ok else s.fault := by
  unfold State.setRst; dsimp only; split <;> rfl
@[simp] theorem setRst_mode (b : Bool) (s : State) :
    (s.setRst b).mode = if s.port.rst || b then RoleMap.const .unconfigured else s.mode := by
  unfold State.setRst; dsimp only; split <;> rfl
@[simp] theorem setRst_outlvl (b : Bool) (s : State) :
    (s.setRst b).outlvl = if s.port.rst || b then RoleMap.const none else s.outlvl := by
  unfold State.setRst; dsimp only; split <;> rfl
@[simp] theorem setRst_port (b : Bool) (s : State) : (s.setRst b).port = { s.port with rst := b } := rfl
@[simp] theorem setRst_rspValid (b : Bool) (s : State) :
    (s.setRst b).rspValid = if s.port.rst || b then false else s.rspValid := by
  unfold State.setRst; dsimp only; split <;> rfl
@[simp] theorem setRst_world (b : Bool) (s : State) : (s.setRst b).world = s.world := by
  unfold State.setRst; dsimp only; split <;> rfl

@[simp] theorem applyReset_cfg (s : State) : (applyReset s).cfg = s.cfg := rfl
@[simp] theorem applyReset_released (s : State) : (applyReset s).released = s.released := rfl
@[simp] theorem applyReset_phase (s : State) : (applyReset s).phase = .idle := rfl
@[simp] theorem applyReset_scr (s : State) : (applyReset s).scr = 0#12 := rfl
@[simp] theorem applyReset_tx (s : State) : (applyReset s).tx = 0#8 := rfl
@[simp] theorem applyReset_rx (s : State) : (applyReset s).rx = 0#8 := rfl
@[simp] theorem applyReset_rxbuf (s : State) : (applyReset s).rxbuf = Vector.replicate 5 0#8 := rfl
@[simp] theorem applyReset_field (s : State) : (applyReset s).field = 0#16 := rfl
@[simp] theorem applyReset_mask (s : State) : (applyReset s).mask = 0#8 := rfl
@[simp] theorem applyReset_bool (s : State) : (applyReset s).bool = false := rfl
@[simp] theorem applyReset_op (s : State) : (applyReset s).op = .init := rfl
@[simp] theorem applyReset_arg (s : State) : (applyReset s).arg = 0#8 := rfl
@[simp] theorem applyReset_bitcnt (s : State) : (applyReset s).bitcnt = 0#4 := rfl
@[simp] theorem applyReset_bytecnt (s : State) : (applyReset s).bytecnt = 0#3 := rfl
@[simp] theorem applyReset_framecnt (s : State) : (applyReset s).framecnt = 0#2 := rfl
@[simp] theorem applyReset_prime (s : State) : (applyReset s).prime = false := rfl
@[simp] theorem applyReset_inited (s : State) : (applyReset s).inited = false := rfl
@[simp] theorem applyReset_fault (s : State) : (applyReset s).fault = .ok := rfl
@[simp] theorem applyReset_mode (s : State) : (applyReset s).mode = RoleMap.const .unconfigured := rfl
@[simp] theorem applyReset_outlvl (s : State) : (applyReset s).outlvl = RoleMap.const none := rfl
@[simp] theorem applyReset_port (s : State) : (applyReset s).port = s.port := rfl
@[simp] theorem applyReset_rspValid (s : State) : (applyReset s).rspValid = false := rfl
@[simp] theorem applyReset_world (s : State) : (applyReset s).world = s.world := rfl

end Sys2Proof.Machine
end

