-- ==== Sys2Proof/Laws/Ops.lean ====
section
/-!
SUPPORT. The small lemmas of the shared operations: maps over roles, outcomes, events and time, the pin primitives, the command
port. Later proofs cite these and unfold none of the operations.
-/

namespace Sys2Proof

theorem Role.idx_injective {p q : Role} (h : p.idx = q.idx) : p = q := by
  cases p <;> cases q <;> simp_all [Role.idx, Fin.ext_iff] <;> omega

@[simp] theorem RoleMap.get_put_same {α : Type} (m : RoleMap α) (p : Role) (a : α) : RoleMap.get (RoleMap.put m p a) p = a := by
  simp [RoleMap.get, RoleMap.put]

@[simp] theorem RoleMap.get_put_other {α : Type} (m : RoleMap α) {p q : Role} (a : α) (h : p ≠ q) :
    RoleMap.get (RoleMap.put m p a) q = RoleMap.get m q := by
  have hi : p.idx ≠ q.idx := fun e => h (Role.idx_injective e)
  simp [RoleMap.get, RoleMap.put, Fin.val_ne_of_ne hi]

@[simp] theorem RoleMap.get_const {α : Type} (a : α) (p : Role) : RoleMap.get (RoleMap.const a) p = a := by
  simp [RoleMap.get, RoleMap.const]

namespace Machine

/-! ### Outcomes -/

@[simp] theorem andThen_next (s : State) (f : State → Out) : andThen (.next s) f = f s := rfl

@[simp] theorem andThen_fault (r : Fault) (f : State → Out) : andThen (.fault r) f = .fault r := rfl

@[simp] theorem andThen_refused (r : Refusal) (f : State → Out) : andThen (.refused r) f = .refused r := rfl

theorem andThen_eq_next {o : Out} {f : State → Out} {t : State} :
    andThen o f = .next t ↔ ∃ u, o = .next u ∧ f u = .next t := by
  cases o <;> simp

theorem andThen_eq_fault {o : Out} {f : State → Out} {r : Fault} :
    andThen o f = .fault r ↔ o = .fault r ∨ ∃ u, o = .next u ∧ f u = .fault r := by
  cases o <;> simp

theorem andThen_eq_refused {o : Out} {f : State → Out} {r : Refusal} :
    andThen o f = .refused r ↔ o = .refused r ∨ ∃ u, o = .next u ∧ f u = .refused r := by
  cases o <;> simp

theorem andThen_assoc (o : Out) (f g : State → Out) :
    andThen (andThen o f) g = andThen o fun s => andThen (f s) g := by
  cases o <;> rfl

/-! ### Selecting a variant -/

theorem selectVariant_eq_next {v : Variant} {s t : State} :
    selectVariant v s = .next t ↔
      s.port.rst = true ∧ s.released = false ∧ t = { s with cfg := { s.cfg with variant := v.code } } := by
  unfold selectVariant
  split
  · simp_all only [Bool.and_eq_true, Bool.not_eq_eq_eq_not, Bool.not_true, Host.Outcome.next.injEq, true_and]
    exact eq_comm
  · simp_all

/-! ### Events and time -/

theorem World.now_le_nextTime (w : World) : w.now ≤ w.nextTime := Nat.le_add_right _ _

theorem happened_refl (w : World) : Happened w w [] 0 := ⟨[], by simp⟩

theorem happened_trans {w₁ w₂ w₃ : World} {es fs : List Event} {m n : Nat}
    (h₁ : Happened w₁ w₂ es m) (h₂ : Happened w₂ w₃ fs n) : Happened w₁ w₃ (es ++ fs) (m + n) := by
  obtain ⟨new₁, t₁, e₁, v₁, k₁⟩ := h₁
  obtain ⟨new₂, t₂, e₂, v₂, k₂⟩ := h₂
  exact ⟨new₁ ++ new₂, by rw [t₂, t₁, List.append_assoc], by rw [List.map_append, e₁, e₂],
    by rw [v₂, v₁, List.drop_drop], le_trans k₁ k₂⟩

theorem happened_emit (e : Event) (w : World) : Happened w (w.emit e) [e] 0 :=
  ⟨[⟨w.nextTime, e⟩], rfl, rfl, rfl, w.now_le_nextTime⟩

theorem happened_sampled (p : Role) (l : Level) (w : World) : Happened w (w.sampled p l) [.smp p l] 1 :=
  ⟨[⟨w.nextTime, .smp p l⟩], rfl, rfl, by simp [World.sampled], w.now_le_nextTime⟩

theorem happened_delay (t : Nat) (w : World) : Happened w (w.delay t) (holdEvents t) 0 := by
  unfold World.delay holdEvents
  split
  · exact happened_refl w
  · refine ⟨[⟨w.nextTime, .dly t⟩], rfl, rfl, rfl, ?_⟩
    have := w.now_le_nextTime
    simp only
    omega

theorem delay_now (t : Nat) (w : World) : w.now + t ≤ (w.delay t).now := by
  unfold World.delay
  split
  · omega
  · have := w.now_le_nextTime
    simp only
    omega

theorem emit_now (e : Event) (w : World) : w.now ≤ (w.emit e).now := w.now_le_nextTime

theorem sampled_now (p : Role) (l : Level) (w : World) : w.now ≤ (w.sampled p l).now := w.now_le_nextTime

/-! ### Pin primitives: what each can answer -/

theorem configure_next {p : Role} {m : Mode} {e : Event} {s t : State} :
    configure p m e s = .next t ↔ hasRole s p = true ∧ t = emit e { s with mode := s.mode.put p m } := by
  by_cases h : hasRole s p = true <;> simp [configure, h, eq_comm (a := t)]

theorem configure_fault {p : Role} {m : Mode} {e : Event} {s : State} {r : Fault} :
    configure p m e s = .fault r ↔ hasRole s p = false ∧ r = .noSuchRole p := by
  by_cases h : hasRole s p = true <;> simp [configure, h, eq_comm (a := r)]

theorem drive_next {p : Role} {v : Level} {s t : State} :
    drive p v s = .next t ↔
      hasRole s p = true ∧ s.mode.get p = .out ∧ t = emit (.drv p v) { s with outlvl := s.outlvl.put p (some v) } := by
  by_cases h : hasRole s p = true <;> by_cases k : s.mode.get p = .out <;> simp [drive, h, k, eq_comm (a := t)]

theorem drive_fault {p : Role} {v : Level} {s : State} {r : Fault} (h : drive p v s = .fault r) :
    hasRole s p = false ∨ s.mode.get p ≠ .out := by
  unfold drive at h
  split at h
  · split at h
    · cases h
    · exact .inr ‹_›
  · exact .inl (by simp_all)

theorem sample_next {p : Role} {s t : State} {k : Level → State → Out} :
    sample p s k = .next t ↔
      hasRole s p = true ∧ canSample p s = true ∧
        k (levelAt p s) { s with world := s.world.sampled p (levelAt p s) } = .next t := by
  unfold sample
  split
  · split <;> simp_all
  · simp_all

theorem configure_not_refused {p : Role} {m : Mode} {e : Event} {s : State} {r : Refusal} :
    configure p m e s ≠ .refused r := by
  unfold configure
  split <;> simp

theorem drive_not_refused {p : Role} {v : Level} {s : State} {r : Refusal} : drive p v s ≠ .refused r := by
  unfold drive
  split
  · split <;> simp
  · simp

/-- The environment's next answer, where it has one, is the level sampled (R74, R75). -/
theorem levelAt_answers (p : Role) (s : State) : AnswerOf s p (levelAt p s) := by
  unfold AnswerOf levelAt World.driven
  rcases s.world.env with _ | ⟨a, l⟩
  · simp
  · cases a <;> simp +contextual

/-! ### The command port and the response port -/

theorem HostOp.code_injective {o o' : HostOp} (h : o.code = o'.code) : o = o' := by
  revert h
  cases o <;> cases o' <;> decide

theorem rspMask_eq (s : State) : rspMask s = if s.op = .read then some s.mask else none :=
  if_congr ⟨HostOp.code_injective, fun h => congrArg HostOp.code h⟩ rfl rfl

theorem rspBool_eq (s : State) : rspBool s = if s.op = .ispressed then some s.bool else none :=
  if_congr ⟨HostOp.code_injective, fun h => congrArg HostOp.code h⟩ rfl rfl

/-- The host's move keeps its duty. -/
theorem present_duty {s : State} (h : HostDuty s) (o : BitVec 2) (a : Byte) : HostDuty (s.present o a) := by
  by_cases k : cmdReady s = true
  · rw [present_ready k]
    exact fun _ => k
  · rwa [present_busy (by simpa using k)]

theorem acceptCommand_next {o : HostOp} {a : Byte} {s t : State} :
    acceptCommand o a s = .next t ↔
      cmdReady s = true ∧ acceptable o s = true ∧
        t = { s with op := o, arg := a, phase := .dispatch, port := { s.port with cmdValid := false } } := by
  by_cases h : cmdReady s = true <;> by_cases k : acceptable o s = true <;> simp [acceptCommand, h, k, eq_comm (a := t)]

theorem acceptCommand_refused {o : HostOp} {a : Byte} {s : State} {r : Refusal} :
    acceptCommand o a s = .refused r ↔
      (cmdReady s = true ∧ acceptable o s = false ∧ r = refusalOf o) ∨ (cmdReady s = false ∧ r = .portNotReady) := by
  by_cases h : cmdReady s = true <;> by_cases k : acceptable o s = true <;> simp [acceptCommand, h, k, eq_comm (a := r)]

@[simp] theorem raiseConfigError_next (c : FaultCode) (s : State) :
    raiseConfigError c s = .next { s with fault := c, phase := .halt } := rfl

@[simp] theorem goto_next (q : Phase) (s : State) : goto q s = .next { s with phase := q } := rfl

end Machine

end Sys2Proof
end

