-- ==== Sys2Proof/Laws/PerInstr.lean ====
section
/-! SUPPORT. One fact about the encoding of every operation, by constructor: the bytes of an operation are at least one and at most
three, and decoding them in the operation's own format never finds them too short (spec/30_encoding.md R90, R105; log 18). -/

namespace Sys2Proof.Laws.EncodeFits

/-- The encoding of the operation has one to three bytes, and in its own format they are enough. -/
def Statement (i : Instr) : Prop :=
  1 ≤ (encode i).length ∧ (encode i).length ≤ 3 ∧ decode (formatOf i) (encode i) ≠ .bad .tooShort

theorem decodeRole_not_tooShort (roles : List Role) (mk : Role → Instr) (b : Byte) (rest : List Byte) :
    decodeRole roles mk (b :: rest) ≠ .bad .tooShort := by
  unfold decodeRole
  split <;> simp_all
  split at * <;> simp_all

theorem decodeDrv_not_tooShort (b v : Byte) (rest : List Byte) : decodeDrv (b :: v :: rest) ≠ .bad .tooShort := by
  simp only [decodeDrv]
  split <;> simp

theorem decodeSr12_not_tooShort (lo hi : Byte) (rest : List Byte) : decodeSr12 (lo :: hi :: rest) ≠ .bad .tooShort := by
  simp only [decodeSr12]
  split <;> simp

theorem init (arg : Byte) : Statement (.init arg) := ⟨by simp [encode], by simp [encode], by simp [encode, decode, formatOf, decodeCmd]⟩

theorem read (arg : Byte) : Statement (.read arg) := ⟨by simp [encode], by simp [encode], by simp [encode, decode, formatOf, decodeCmd]⟩

theorem ispressed (arg : Byte) : Statement (.ispressed arg) := ⟨by simp [encode], by simp [encode], by simp [encode, decode, formatOf, decodeCmd]⟩

theorem cmdReserved (arg : Byte) : Statement (.cmdReserved arg) := ⟨by simp [encode], by simp [encode], by simp [encode, decode, formatOf, decodeCmd]⟩

theorem idle : Statement .idle := by unfold Statement; decide

theorem dispatch : Statement .dispatch := by unfold Statement; decide

theorem respond : Statement .respond := by unfold Statement; decide

theorem halt : Statement .halt := by unfold Statement; decide

theorem gInit : Statement .gInit := by unfold Statement; decide

theorem gClear : Statement .gClear := by unfold Statement; decide

theorem gSmp : Statement .gSmp := by unfold Statement; decide

theorem gDone : Statement .gDone := by unfold Statement; decide

theorem sInit : Statement .sInit := by unfold Statement; decide

theorem sLatchHi : Statement .sLatchHi := by unfold Statement; decide

theorem sLatchLo : Statement .sLatchLo := by unfold Statement; decide

theorem sSample : Statement .sSample := by unfold Statement; decide

theorem sClkLo : Statement .sClkLo := by unfold Statement; decide

theorem sClkHi : Statement .sClkHi := by unfold Statement; decide

theorem sRemap : Statement .sRemap := by unfold Statement; decide

theorem pInit : Statement .pInit := by unfold Statement; decide

theorem pSettle : Statement .pSettle := by unfold Statement; decide

theorem pAttLo : Statement .pAttLo := by unfold Statement; decide

theorem pLoad : Statement .pLoad := by unfold Statement; decide

theorem xCmd : Statement .xCmd := by unfold Statement; decide

theorem xClkLo : Statement .xClkLo := by unfold Statement; decide

theorem xClkHi : Statement .xClkHi := by unfold Statement; decide

theorem xHold : Statement .xHold := by unfold Statement; decide

theorem pStore : Statement .pStore := by unfold Statement; decide

theorem pAttHi : Statement .pAttHi := by unfold Statement; decide

theorem pRemap : Statement .pRemap := by unfold Statement; decide

theorem cfgOut (p : Role) : Statement (.cfgOut p) := ⟨by simp [encode], by simp [encode], decodeRole_not_tooShort _ _ _ _⟩

theorem cfgIn (p : Role) : Statement (.cfgIn p) := ⟨by simp [encode], by simp [encode], decodeRole_not_tooShort _ _ _ _⟩

theorem cfgInPu (p : Role) : Statement (.cfgInPu p) := ⟨by simp [encode], by simp [encode], decodeRole_not_tooShort _ _ _ _⟩

theorem drv (p : Role) (v : Level) : Statement (.drv p v) := ⟨by simp [encode], by simp [encode], decodeDrv_not_tooShort _ _ _⟩

theorem smp (p : Role) : Statement (.smp p) := ⟨by simp [encode], by simp [encode], decodeRole_not_tooShort _ _ _ _⟩

theorem dly (t : BitVec 16) : Statement (.dly t) := ⟨by simp [encode], by simp [encode], by simp [encode, decode, formatOf, decodeTrace, decodeDly]⟩

theorem txStart : Statement .txStart := by unfold Statement; decide

theorem txPoll : Statement .txPoll := by unfold Statement; decide

theorem txPad : Statement .txPad := by unfold Statement; decide

theorem txPrime : Statement .txPrime := by unfold Statement; decide

theorem remapNes (s : BitVec 8) : Statement (.remapNes s) := ⟨by simp [encode], by simp [encode], by simp [encode, decode, formatOf, decodeOperand8]⟩

theorem remapSnes (s : BitVec 12) : Statement (.remapSnes s) := ⟨by simp [encode], by simp [encode], decodeSr12_not_tooShort _ _ _⟩

theorem remapPsx (f : BitVec 16) : Statement (.remapPsx f) := ⟨by simp [encode], by simp [encode], by simp [encode, decode, formatOf, decodeFrame]⟩

theorem remapGpio (s : BitVec 8) : Statement (.remapGpio s) := ⟨by simp [encode], by simp [encode], by simp [encode, decode, formatOf, decodeOperand8]⟩

theorem faultNone : Statement .faultNone := by unfold Statement; decide

theorem faultNoVariant : Statement .faultNoVariant := by unfold Statement; decide

theorem faultBadPinmap : Statement .faultBadPinmap := by unfold Statement; decide

theorem variantNone : Statement .variantNone := by unfold Statement; decide

theorem variantGpio : Statement .variantGpio := by unfold Statement; decide

theorem variantNes : Statement .variantNes := by unfold Statement; decide

theorem variantSnes : Statement .variantSnes := by unfold Statement; decide

theorem variantPsx : Statement .variantPsx := by unfold Statement; decide

end Sys2Proof.Laws.EncodeFits
end

