-- ==== Sys2Proof/Tests/Slice0.lean ====
section
/-!
SUPPORT. Tests. Expected values are the spec's: the tables of spec/30_encoding.md, the vectors of spec/95_test_vectors.md, or a rule
worked by hand; each test names its source. Then, for every statement with hypotheses, a state that meets all of them together.
-/

namespace Sys2Proof.Tests

open Sys2Proof Sys2Proof.Machine

/-! ### Well-formedness: an ill-formed operation for each check -/

/-- CFG_OUT, CFG_IN and CFG_IN_PU take any pin role (R140 to R142). -/
theorem test_wf_cfg : (Instr.cfgOut .data).wellFormed = true ∧ (Instr.cfgIn .cmd).wellFormed = true ∧
    (Instr.cfgInPu .dat).wellFormed = true := by decide

/-- DRV of an input role (R143). -/
theorem test_wf_drv : (Instr.drv (.btn 3) .L).wellFormed = false ∧ (Instr.drv .att .L).wellFormed = true := by decide

/-- SMP of an output role (R144). -/
theorem test_wf_smp : (Instr.smp .latch).wellFormed = false ∧ (Instr.smp .data).wellFormed = true := by decide

/-! ### Decoding: every row's code, bit by bit from R99 to R103, R105, R215, R216 -/

/-- F-CMD (R99): `cmd_op` above `cmd_arg`, so `cmd_op` is in the second byte. -/
theorem test_decode_cmd :
    decode .cmd [0b11001010#8, 0b00#8] = .ok (.init 0xCA#8) [] ∧ decode .cmd [0b0#8, 0b01#8] = .ok (.read 0x00#8) [] ∧
    decode .cmd [0b10000000#8, 0b10#8] = .ok (.ispressed 0x80#8) [] ∧ decode .cmd [0b1#8, 0b11#8] = .ok (.cmdReserved 0x01#8) [] ∧
    decode .cmd [0#8, 0b100#8] = .bad .reservedBits ∧ decode .cmd [0#8] = .bad .tooShort := by decide

/-- F-PHASE, common and direct phases (R101). -/
theorem test_decode_phase_common :
    decode .phase [0b000000#8] = .ok .idle [] ∧ decode .phase [0b000001#8] = .ok .dispatch [] ∧
    decode .phase [0b000010#8] = .ok .respond [] ∧ decode .phase [0b111111#8] = .ok .halt [] ∧
    decode .phase [0b001000#8] = .ok .gInit [] ∧ decode .phase [0b001001#8] = .ok .gClear [] ∧
    decode .phase [0b001010#8] = .ok .gSmp [] ∧ decode .phase [0b001011#8] = .ok .gDone [] := by decide

/-- F-PHASE, shift phases (R101). -/
theorem test_decode_phase_shift :
    decode .phase [0b010000#8] = .ok .sInit [] ∧ decode .phase [0b010001#8] = .ok .sLatchHi [] ∧
    decode .phase [0b010010#8] = .ok .sLatchLo [] ∧ decode .phase [0b010011#8] = .ok .sSample [] ∧
    decode .phase [0b010100#8] = .ok .sClkLo [] ∧ decode .phase [0b010101#8] = .ok .sClkHi [] ∧
    decode .phase [0b010110#8] = .ok .sRemap [] := by decide

/-- F-PHASE, serial phases (R101). -/
theorem test_decode_phase_serial :
    decode .phase [0b100000#8] = .ok .pInit [] ∧ decode .phase [0b100001#8] = .ok .pSettle [] ∧
    decode .phase [0b100010#8] = .ok .pAttLo [] ∧ decode .phase [0b100011#8] = .ok .pLoad [] ∧
    decode .phase [0b100100#8] = .ok .xCmd [] ∧ decode .phase [0b100101#8] = .ok .xClkLo [] ∧
    decode .phase [0b100110#8] = .ok .xClkHi [] ∧ decode .phase [0b100111#8] = .ok .xHold [] ∧
    decode .phase [0b101000#8] = .ok .pStore [] ∧ decode .phase [0b101001#8] = .ok .pAttHi [] ∧
    decode .phase [0b101010#8] = .ok .pRemap [] := by decide

/-- The codes next to the tables are refused by name (R106 c). -/
theorem test_decode_phase_reserved :
    decode .phase [0b000011#8] = .bad .reservedPhase ∧ decode .phase [0b010111#8] = .bad .reservedPhase ∧
    decode .phase [0b101011#8] = .bad .reservedPhase ∧ decode .phase [0b1000000#8] = .bad .reservedBits := by decide

/-- F-TRACE (R103), each tag with its operands (log 18). -/
theorem test_decode_trace :
    decode .trace [0b000#8, 13#8] = .ok (.cfgOut .cmd) [] ∧ decode .trace [0b001#8, 14#8] = .ok (.cfgIn .dat) [] ∧
    decode .trace [0b010#8, 7#8] = .ok (.cfgInPu (.btn 7)) [] ∧ decode .trace [0b011#8, 1#8, 0#8] = .ok (.drv .clock .L) [] ∧
    decode .trace [0b100#8, 8#8] = .ok (.smp .data) [] ∧ decode .trace [0b101#8, 0x34#8, 0x12#8] = .ok (.dly 0x1234#16) [] := by decide

/-- Trace tags 6 and 7 are unused (R103); an operand that names nothing is refused. -/
theorem test_decode_trace_bad :
    decode .trace [0b110#8] = .bad .unusedTag ∧ decode .trace [0b111#8] = .bad .unusedTag ∧
    decode .trace [0b1000#8] = .bad .reservedBits ∧ decode .trace [0b000#8, 15#8] = .bad .noSuchRole ∧
    decode .trace [0b011#8, 5#8, 0#8] = .bad .noSuchRole ∧ decode .trace [0b100#8, 10#8] = .bad .noSuchRole ∧
    decode .trace [0b011#8, 0#8, 2#8] = .bad .noSuchLevel := by decide

/-- F-BYTE: the bytes sent (R215, R216); no other byte is sent (R106 e). -/
theorem test_decode_byte :
    decode .byte [0b00000001#8] = .ok .txStart [] ∧ decode .byte [0b01000010#8] = .ok .txPoll [] ∧
    decode .byte [0b11111111#8] = .ok .txPad [] ∧ decode .byte [0b00000000#8] = .ok .txPrime [] ∧
    decode .byte [0b01000011#8] = .bad .neverSent := by decide

/-- The remap operands: F-SR8 (R93), F-SR12 with bits 11 to 8 above (R94), the field (R97), F-GPIO (R92). -/
theorem test_decode_remap :
    decode .sr8 [0b10011001#8] = .ok (.remapNes 0x99#8) [] ∧
    decode .sr12 [0b00000010#8, 0b1000#8] = .ok (.remapSnes 0x802#12) [] ∧ decode .sr12 [0#8, 0b10000#8] = .bad .reservedBits ∧
    decode .frame [0b00010000#8, 0b01000000#8] = .ok (.remapPsx 0x4010#16) [] ∧
    decode .gpio [0b10100101#8] = .ok (.remapGpio 0xA5#8) [] := by decide

/-- F-FAULT (R102) and F-VARIANT (R100), whose codes 5 to 7 count as NONE. -/
theorem test_decode_fault_variant :
    decode .fault [0b00#8] = .ok .faultNone [] ∧ decode .fault [0b01#8] = .ok .faultNoVariant [] ∧
    decode .fault [0b10#8] = .ok .faultBadPinmap [] ∧ decode .fault [0b11#8] = .bad .reservedFault ∧
    decode .variant [0b000#8] = .ok .variantNone [] ∧ decode .variant [0b001#8] = .ok .variantGpio [] ∧
    decode .variant [0b010#8] = .ok .variantNes [] ∧ decode .variant [0b011#8] = .ok .variantSnes [] ∧
    decode .variant [0b100#8] = .ok .variantPsx [] ∧ decode .variant [0b111#8] = .ok .variantNone [] := by decide

/-- The host's words of the table, numbered as the table numbers them (R99, R101; log 19). -/
theorem test_decodeTableWord :
    decodeTableWord 16 0x280 = some (.ispressed 0x80#8) ∧ decodeTableWord 10 0x100 = some (.read 0x00#8) ∧
    decodeTableWord 8 0x2A = some .pRemap ∧ decodeTableWord 8 0x42 = some .txPoll ∧
    decodeTableWord 16 0x802 = some (.remapSnes 0x802#12) ∧ decodeTableWord 16 0x4010 = some (.remapPsx 0x4010#16) ∧ decodeTableWord 8 0x100 = none := by decide

/-! ### States for the tests and the witnesses -/

/-- The parameters of a good instance of a variant, with `T_XCLK_LO` as given. -/
def good (v : Variant) (xclkLo : Nat) : Params :=
  { variant := v.code
    pinmap := RoleMap.const (some 21)
    accepted := [(v, RoleMap.const (some 21))]
    timing := { Timing.literals with tXclkLo := xclkLo } }

/-- A good instance about to execute a phase for a command, the environment answering the levels given. -/
def during (v : Variant) (q : Phase) (op : HostOp) (ls : List Level) : State :=
  let inited := decide (op ≠ .init)
  let ready := (inited || !(q == .dispatch)) && !q.isInit
  { State.resetWith (good v 0) with
    phase := q
    op := op
    inited := inited
    prime := q.inFrame && !inited
    mode := if ready then initModes v else RoleMap.const .unconfigured
    outlvl := if ready then drivenLines v q (some .H) else RoleMap.const none
    world := { (State.resetWith (good v 0)).world with env := ls.map some } }

/-- A waiting instance of a variant, configured by INIT or not, with a command at the port. -/
def waiting (v : Variant) (inited : Bool) (op : BitVec 2) (arg : Byte) : State :=
  { State.resetWith (good v 0) with
    inited := inited
    mode := if inited then initModes v else RoleMap.const .unconfigured
    outlvl := if inited then drivenLines v .idle (some .H) else RoleMap.const none
    port := { rst := false, cmdValid := true, cmdOp := op, cmdArg := arg } }

/-- A part of the next state, where there is one. -/
def part {α : Type} (o : Out) (f : State → α) : Option α :=
  match o with
  | .next t => some (f t)
  | _ => none

/-- Why an operation is refused, where it is. -/
def refusal (o : Out) : Option Refusal :=
  match o with
  | .refused r => some r
  | _ => none

/-! ### Operations -/

/-- Program 1 of spec/95: the command word of INIT is taken from reset. -/
theorem test_init : part (exec (.init 0x5A#8) (waiting .gpio false 0#2 0x5A#8)) (fun t => (t.op, t.arg, t.phase))
    = some (.init, 0x5A#8, .dispatch) := by decide

/-- R123: a second INIT is refused. -/
theorem test_init_twice : refusal (exec (.init 0#8) (waiting .gpio true 0#2 0#8)) = some .initTwice := by decide

/-- R128: READ once INITED = 1; `cmd_valid` is withdrawn (log 7). -/
theorem test_read : part (exec (.read 0#8) (waiting .nes true 1#2 0#8)) (fun t => (t.op, t.phase, t.port.cmdValid))
    = some (.read, .dispatch, false) := by decide

/-- R123: a poll before INIT is refused. -/
theorem test_read_early : refusal (exec (.read 0#8) (waiting .nes false 1#2 0#8)) = some .pollBeforeInit := by decide

/-- R129: the button mask is latched into ARG. -/
theorem test_ispressed : part (exec (.ispressed 0x08#8) (waiting .psx true 2#2 0x08#8)) (fun t => (t.op, t.arg))
    = some (.ispressed, 0x08#8) := by decide

/-- R106: the reserved code is refused. -/
theorem test_cmdReserved : refusal (exec (.cmdReserved 0#8) (waiting .psx true 3#2 0#8)) = some .reservedCommand := by decide

/-- R122: IDLE waits when no command is presented. -/
theorem test_idle : part (exec .idle (State.resetWith (good .nes 0))) id = some (State.resetWith (good .nes 0)) := by decide

/-- R124 and table of R255: with no variant and an unbound pin map, NO_VARIANT is found first. -/
theorem test_dispatch_no_variant :
    part (exec .dispatch { State.reset with phase := .dispatch }) (fun t => (t.fault, t.phase, t.world.trace.length))
      = some (.noVariant, .halt, 0) := by decide

/-- R124: INIT of a PSX instance goes to P_INIT. -/
theorem test_dispatch_psx : part (exec .dispatch (during .psx .dispatch .init [])) (·.phase) = some .pInit := by decide

/-- Program 4 of spec/95, table V-ISP: MASK 0x09 tested against Start. -/
theorem test_respond : part (exec .respond { during .nes .respond .ispressed [] with mask := 0x09#8, arg := 0x08#8 })
    (fun t => (t.bool, t.rspValid, t.phase)) = some (true, true, .idle) := by decide

/-- R40: `rsp_op` and `rsp_mask` copy OP and MASK after the pulse of `rsp_valid` too. -/
theorem test_response_outputs : part (step { during .nes .idle .read [] with mask := 0x99#8, rspValid := true })
    (fun t => (t.rspValid, rspOp t, rspMask t, rspBool t)) = some (false, 1#2, some 0x99#8, none) := by decide

/-- R286: the host has no move at a busy port, and has it at a ready one. -/
theorem test_present : (during .nes .sClkLo .read []).present 1#2 0#8 = during .nes .sClkLo .read [] ∧
    (State.reset.present 0#2 7#8).port.cmdValid = true := by decide

/-- R280: `rst` asserted in mid-command and released again before any step leaves IDLE, no response, and the lines released. -/
theorem test_reset_in_mid_command :
    let t := ((during .nes .sClkHi .read []).setRst true).setRst false
    (during .nes .sClkHi .read []).outlvl.get .clock = some .L ∧
      (t.phase, t.inited, t.rspValid, t.mode.get .clock, t.outlvl.get .clock) = (.idle, false, false, .unconfigured, none) := by decide

/-- R126: HALT is left by nothing but reset. -/
theorem test_halt : part (exec .halt { State.reset with phase := .halt, fault := .badPinmap }) (fun t => (t.phase, t.fault))
    = some (.halt, .badPinmap) := by decide

/-- R160: eight lines, `BTN0` first, all pulled up. -/
theorem test_gInit : part (exec .gInit (during .gpio .gInit .init []))
    (fun t => (t.mode == initModes .gpio, (t.world.trace.map (·.ev)).head?, t.world.trace.length))
      = some (true, some (.cfgInPu (.btn 0)), 8) := by decide

/-- R161. -/
theorem test_gClear : part (exec .gClear { during .gpio .gClear .read [] with scr := 0xFFF#12, bitcnt := 8#4 })
    (fun t => (t.scr, t.bitcnt, t.phase)) = some (0#12, 0#4, .gSmp) := by decide

/-- R162, the last line: `L` sets bit 7 and ends the loop. -/
theorem test_gSmp_last : part (exec .gSmp { during .gpio .gSmp .read [.L] with scr := 0x025#12, bitcnt := 7#4 })
    (fun t => (t.scr, t.bitcnt, t.phase)) = some (0x0A5#12, 8#4, .gDone) := by decide

/-- R162: `H` writes nothing. -/
theorem test_gSmp_high : part (exec .gSmp { during .gpio .gSmp .read [.H] with scr := 0x001#12, bitcnt := 1#4 })
    (fun t => (t.scr, t.bitcnt, t.phase)) = some (0x001#12, 2#4, .gSmp) := by decide

/-- Table V-GPIO of spec/95, row LHLHHLHL. -/
theorem test_gDone : part (exec .gDone { during .gpio .gDone .read [] with scr := 0x0A5#12 }) (·.mask) = some 0xA5#8 := by decide

/-- R170. -/
theorem test_sInit : part (exec .sInit (during .snes .sInit .init []))
    (fun t => (t.outlvl.get .latch, t.outlvl.get .clock, t.mode.get .data, t.world.trace.length))
      = some (some .L, some .H, .inp, 5) := by decide

/-- R171. -/
theorem test_sLatchHi : part (exec .sLatchHi { during .snes .sLatchHi .read [] with scr := 0xFFF#12, bitcnt := 12#4 })
    (fun t => (t.outlvl.get .latch, t.scr, t.bitcnt, t.world.trace.map (·.ev)))
      = some (some .H, 0#12, 0#4, [.drv .latch .H, .dly 12]) := by decide

/-- R172. -/
theorem test_sLatchLo : part (exec .sLatchLo (during .nes .sLatchLo .read []))
    (fun t => (t.outlvl.get .latch, t.world.trace.map (·.ev))) = some (some .L, [.drv .latch .L, .dly 6]) := by decide

/-- R173, the twelfth sample. -/
theorem test_sSample : part (exec .sSample { during .snes .sSample .read [.L] with scr := 0x001#12, bitcnt := 11#4 })
    (fun t => (t.scr, t.bitcnt, t.phase)) = some (0x801#12, 11#4, .sClkLo) := by decide

/-- R174. -/
theorem test_sClkLo : part (exec .sClkLo (during .nes .sClkLo .read []))
    (fun t => (t.outlvl.get .clock, t.world.trace.map (·.ev))) = some (some .L, [.drv .clock .L, .dly 6]) := by decide

/-- R175: the frame of NES ends after bit 7. -/
theorem test_sClkHi_nes : part (exec .sClkHi { during .nes .sClkHi .read [] with bitcnt := 7#4 })
    (fun t => (t.bitcnt, t.phase, t.world.trace.map (·.ev))) = some (8#4, .sRemap, [.drv .clock .H, .dly 6]) := by decide

/-- R175: that of SNES goes on. -/
theorem test_sClkHi_snes : part (exec .sClkHi { during .snes .sClkHi .read [] with bitcnt := 7#4 })
    (fun t => (t.bitcnt, t.phase)) = some (8#4, .sSample) := by decide

/-- Table V-NES of spec/95, row LHHLLHHL. -/
theorem test_sRemap_nes : part (exec .sRemap { during .nes .sRemap .read [] with scr := 0x099#12 }) (·.mask) = some 0x99#8 := by decide

/-- Table V-SNES-U of spec/95, row 1010. -/
theorem test_sRemap_snes : part (exec .sRemap { during .snes .sRemap .read [] with scr := 0xA00#12 }) (·.mask) = some 0x03#8 := by decide

/-- R201. -/
theorem test_pInit : part (exec .pInit (during .psx .pInit .init []))
    (fun t => (t.outlvl.get .att, t.outlvl.get .cmd, t.mode.get .dat, t.prime, t.phase))
      = some (some .H, some .H, .inp, true, .pSettle) := by decide

/-- R202. -/
theorem test_pSettle : part (exec .pSettle (during .psx .pSettle .read [])) (fun t => (t.phase, t.world.trace.map (·.ev)))
    = some (.pAttLo, [.dly 2]) := by decide

/-- R203: no delay. -/
theorem test_pAttLo : part (exec .pAttLo { during .psx .pAttLo .read [] with bytecnt := 5#3 })
    (fun t => (t.bytecnt, t.phase, t.world.trace.map (·.ev))) = some (0#3, .pLoad, [.drv .att .L]) := by decide

/-- R204, R216: the second byte of a poll frame. -/
theorem test_pLoad : part (exec .pLoad { during .psx .pLoad .read [] with bytecnt := 1#3, rx := 0xFF#8 })
    (fun t => (t.tx, t.rx, t.bitcnt, t.phase)) = some (0x42#8, 0#8, 0#4, .xCmd) := by decide

/-- R215: the byte of a priming frame. -/
theorem test_pLoad_prime : part (exec .pLoad (during .psx .pLoad .init [])) (·.tx) = some 0x00#8 := by decide

/-- R205, D13: bit 1 of 0x42 is 1, so `CMD` is `H`. -/
theorem test_xCmd : part (exec .xCmd { during .psx .xCmd .read [] with tx := 0x42#8, bitcnt := 1#4 })
    (fun t => (t.outlvl.get .cmd, t.phase)) = some (some .H, .xClkLo) := by decide

/-- R206: no event for a hold of 0. -/
theorem test_xClkLo : part (exec .xClkLo (during .psx .xClkLo .read [])) (fun t => (t.phase, t.world.trace.map (·.ev)))
    = some (.xClkHi, [.drv .clk .L]) := by decide

/-- R206: an event for a hold of 5. -/
theorem test_xClkLo_hold : part (exec .xClkLo { during .psx .xClkLo .read [] with cfg := good .psx 5 })
    (fun t => t.world.trace.map (·.ev)) = some [.drv .clk .L, .dly 5] := by decide

/-- R207: the edge, then the sample. -/
theorem test_xClkHi : part (exec .xClkHi { during .psx .xClkHi .read [.L] with bitcnt := 7#4, rx := 0x01#8 })
    (fun t => (t.rx, t.phase, t.world.trace.map (·.ev))) = some (0x81#8, .xHold, [.drv .clk .H, .smp .dat .L]) := by decide

/-- R208: the hold after the eighth bit. -/
theorem test_xHold : part (exec .xHold { during .psx .xHold .read [] with bitcnt := 7#4 })
    (fun t => (t.bitcnt, t.phase, t.world.trace.map (·.ev))) = some (8#4, .pStore, [.dly 10]) := by decide

/-- R209: byte 4 is the last of a poll frame. -/
theorem test_pStore : part (exec .pStore { during .psx .pStore .read [] with bytecnt := 4#3, rx := 0x40#8 })
    (fun t => (t.rxbuf[4], t.rxbuf[3], t.bytecnt, t.phase)) = some (0x40#8, 0x00#8, 5#3, .pAttHi) := by decide

/-- R209: byte 0 is the last of a priming frame. -/
theorem test_pStore_prime : part (exec .pStore (during .psx .pStore .init [])) (·.phase) = some .pAttHi := by decide

/-- R210: after the second priming frame. -/
theorem test_pAttHi : part (exec .pAttHi { during .psx .pAttHi .init [] with framecnt := 1#2 })
    (fun t => (t.framecnt, t.prime, t.phase, t.outlvl.get .att)) = some (2#2, false, .respond, some .H) := by decide

/-- R211: the rule's example, Up and Cross. -/
theorem test_pRemap : part (exec .pRemap { during .psx .pRemap .read [] with rxbuf := #v[0#8, 0x41#8, 0x5A#8, 0x10#8, 0x40#8] })
    (fun t => (t.field, t.mask)) = some (0x4010#16, 0x11#8) := by decide

/-- R140. -/
theorem test_cfgOut : part (exec (.cfgOut .clk) (State.resetWith (good .psx 0))) (fun t => (t.mode.get .clk, t.outlvl.get .clk))
    = some (.out, none) := by decide

/-- R141. -/
theorem test_cfgIn : part (exec (.cfgIn .data) (State.resetWith (good .snes 0))) (fun t => t.mode.get .data) = some .inp := by decide

/-- R142. -/
theorem test_cfgInPu : part (exec (.cfgInPu (.btn 7)) (State.resetWith (good .gpio 0)))
    (fun t => (t.mode.get (.btn 7), t.mode.get (.btn 6))) = some (.inpPullUp, .unconfigured) := by decide

/-- R142: any pin role, `DATA` too; the undriven line then samples `H` (R75). -/
theorem test_cfgInPu_data : part (andThen (exec (.cfgInPu .data) { State.resetWith (good .nes 0) with
      world := { State.reset.world with env := [none] } }) (exec (.smp .data)))
    (fun t => (t.mode.get .data, t.world.trace.map (·.ev))) = some (.inpPullUp, [.cfgInPu .data, .smp .data .H]) := by decide

/-- R143: an event even when the level does not change. -/
theorem test_drv : part (exec (.drv .att .H) (during .psx .pSettle .read []))
    (fun t => (t.outlvl.get .att, t.world.trace.map (·.ev))) = some (some .H, [.drv .att .H]) := by decide

/-- R75, R144: an undriven pulled-up line samples `H`. -/
theorem test_smp :
    part (exec (.smp (.btn 2)) { during .gpio .gSmp .read [] with world := { State.reset.world with env := [none, some .L] } })
      (fun t => (t.world.trace.map (·.ev), t.world.env)) = some ([.smp (.btn 2) .H], [some .L]) := by decide

/-- R145. -/
theorem test_dly : part (exec (.dly 300#16) State.reset) (fun t => t.world.trace.map (·.ev)) = some [.dly 300] := by decide

/-- R213, R216 and property P4: the start marker goes out and 0x41 comes in, least significant bit first. -/
theorem test_txStart : part (exec .txStart (during .psx .pLoad .read [.L, .H, .H, .H, .H, .H, .L, .H])) (fun t => (t.rx, t.tx))
    = some (0x41#8, 0x01#8) := by decide

/-- R213, R216. -/
theorem test_txPoll : part (exec .txPoll (during .psx .pLoad .read [.H, .L, .H, .L, .L, .H, .L, .H])) (fun t => (t.rx, t.tx))
    = some (0x5A#8, 0x42#8) := by decide

/-- R216: bit 7 of a pad is 1, so `CMD` ends at `H`. -/
theorem test_txPad : part (exec .txPad (during .psx .pLoad .read (List.replicate 8 .L))) (fun t => (t.rx, t.outlvl.get .cmd))
    = some (0xFF#8, some .H) := by decide

/-- R215: bit 7 of the priming byte is 0. -/
theorem test_txPrime : part (exec .txPrime (during .psx .pLoad .init (List.replicate 8 .H))) (fun t => (t.rx, t.outlvl.get .cmd))
    = some (0x00#8, some .L) := by decide

/-- R177. -/
theorem test_remapNes : part (exec (.remapNes 0xC3#8) State.reset) (·.mask) = some 0xC3#8 := by decide

/-- R178: the rule's two examples. -/
theorem test_remapSnes : part (exec (.remapSnes 0x400#12) State.reset) (·.mask) = some 0x02#8 ∧
    part (exec (.remapSnes 0x802#12) State.reset) (·.mask) = some 0x03#8 := by decide

/-- Table V-PSX-M of spec/95 from E2 and E3: Start passes through by name, R2 gives A, Square gives B. -/
theorem test_remapPsx : part (exec (.remapPsx 0x0008#16) State.reset) (·.mask) = some 0x08#8 ∧
    part (exec (.remapPsx 0x0200#16) State.reset) (·.mask) = some 0x01#8 ∧
    part (exec (.remapPsx 0x8000#16) State.reset) (·.mask) = some 0x02#8 := by decide

/-- R163. -/
theorem test_remapGpio : part (exec (.remapGpio 0x5A#8) State.reset) (·.mask) = some 0x5A#8 := by decide

/-- R34, R251: no error clears nothing. -/
theorem test_faultNone : part (exec .faultNone { State.reset with fault := .badPinmap, phase := .halt }) (·.fault)
    = some .badPinmap := by decide

/-- R254. -/
theorem test_faultNoVariant : part (exec .faultNoVariant State.reset) (fun t => (stFault t, t.phase)) = some (1#2, .halt) := by decide

/-- R254. -/
theorem test_faultBadPinmap : part (exec .faultBadPinmap State.reset) (fun t => (stFault t, t.phase)) = some (2#2, .halt) := by decide

/-- R100, R282: each code selects its variant before reset is released. -/
theorem test_variants :
    part (exec .variantNone (State.powerUp Params.unconfigured)) variantOf = some .unselected ∧
    part (exec .variantGpio (State.powerUp Params.unconfigured)) variantOf = some .gpio ∧
    part (exec .variantNes (State.powerUp Params.unconfigured)) variantOf = some .nes ∧
    part (exec .variantSnes (State.powerUp Params.unconfigured)) variantOf = some .snes ∧
    part (exec .variantPsx (State.powerUp Params.unconfigured)) variantOf = some .psx := by decide

/-- R8, R37: immutable once reset is released, and R256: under a later reset too. -/
theorem test_variant_fixed : refusal (exec .variantNes State.reset) = some .configurationFixed ∧
    refusal (exec .variantNes (((State.powerUp Params.unconfigured).setRst false).setRst true)) = some .configurationFixed := by decide

/-- R8, R253: `PinmapValid` is judged of the VARIANT there is, so the binding accepted for NES is not thereby accepted for SNES. -/
theorem test_pinmapValid_of_variant :
    part (exec .variantNes (State.powerUp (good .nes 0))) (pinmapValid ·.cfg) = some true ∧
    part (exec .variantSnes (State.powerUp (good .nes 0))) (pinmapValid ·.cfg) = some false := by decide

/-- The model's placing of a table row: the phase word of S_CLK_LO is what the next step runs (log 20). -/
theorem test_withFetchWord :
    part (step (State.reset.withFetchWord 8 0x14)) (fun t => (t.phase, t.world.trace.map (·.ev)))
      = some (.sClkHi, [.drv .clock .L, .dly 6]) := by decide

/-! ### Witnesses: the hypotheses of each statement, met together -/

/-- The outcome is a next state. -/
def isNext (o : Out) : Bool := (part o fun _ => ()).isSome

theorem next_of_isNext {o : Out} (h : isNext o = true) : ∃ t, o = .next t := by
  cases o <;> simp_all [isNext, part]

theorem runs_of_isNext {n : Nat} {s : State} (h : isNext (Host.Core.run Sys2Proof.core n s) = true) : ∃ t, Runs n s t :=
  next_of_isNext h

/-- An instance of each variant about to dispatch a poll, its environment driving `L` forty times. -/
def pollOf (v : Variant) : State := during v .dispatch .read (List.replicate 40 .L)

/-- An instance of each variant about to dispatch INIT. -/
def initOf (v : Variant) : State := during v .dispatch .init (List.replicate 40 .H)

theorem inv_poll_gpio : Inv (pollOf .gpio) := ⟨by decide, by decide, by decide, by decide⟩
theorem inv_poll_nes : Inv (pollOf .nes) := ⟨by decide, by decide, by decide, by decide⟩
theorem inv_poll_snes : Inv (pollOf .snes) := ⟨by decide, by decide, by decide, by decide⟩
theorem inv_poll_psx : Inv (pollOf .psx) := ⟨by decide, by decide, by decide, by decide⟩
theorem inv_init_gpio : Inv (initOf .gpio) := ⟨by decide, by decide, by decide, by decide⟩
theorem inv_init_nes : Inv (initOf .nes) := ⟨by decide, by decide, by decide, by decide⟩
theorem inv_init_snes : Inv (initOf .snes) := ⟨by decide, by decide, by decide, by decide⟩
theorem inv_init_psx : Inv (initOf .psx) := ⟨by decide, by decide, by decide, by decide⟩

/-- The literals themselves are long enough. -/
theorem literals_good (v : Variant) : (good v 0).timing.AtLeastLiterals := by cases v <;> decide

theorem test_hyp_AssertedResetAbandonsTheCommand :
    (∃ s : State, s.port.rst = true ∧ s.phase = .xHold) ∧ (∃ s : State, s.port.rst = false ∧ s.phase = .xHold) ∧
    (∃ s : State, s.port.rst = true ∧ ResetHolds s) ∧ ∃ s t : State, s.port.rst = false ∧ ResetHolds s ∧ step s = .next t :=
  ⟨⟨{ during .psx .xHold .read [] with port := { rst := true, cmdValid := false, cmdOp := 0#2, cmdArg := 0#8 } }, by decide, by decide⟩,
   ⟨during .psx .xHold .read [], by decide, by decide⟩,
   ⟨State.powerUp (good .psx 0), rfl, fun _ => ⟨rfl, rfl, rfl, rfl, fun p => by cases p <;> simp [State.powerUp, State.resetWith, RoleMap.get, RoleMap.const], rfl, rfl⟩⟩,
   ⟨State.reset, _, rfl, nofun, rfl⟩⟩

theorem test_hyp_StepRunsTheDecodedOperation :
    (∃ s : State, s.port.rst = false ∧ commandSeen s = false) ∧ ∃ s : State, s.port.rst = false ∧ commandSeen s = true :=
  ⟨⟨State.reset, by decide, by decide⟩, ⟨waiting .gpio false 0#2 0#8, by decide, by decide⟩⟩

theorem test_hyp_DecodeUndoesEncode : ∃ i : Instr, i.wellFormed = true := ⟨.smp (.btn 7), by decide⟩

theorem test_hyp_EncodeUndoesDecode :
    (∃ bs i rest, decode .trace bs = .ok i rest) ∧ ∃ bs i rest, decode .variant bs = .ok i rest ∧ bs = [5#8] :=
  ⟨⟨[0#8, 13#8, 9#8], .cfgOut .cmd, [9#8], by decide⟩, ⟨[5#8], .variantNone, [], by decide, rfl⟩⟩

theorem test_hyp_NoStepChangesTheConfiguration :
    (∃ t : State, step State.reset = .next t) ∧
    (∃ s t : State, s.released = true ∧ s.port.rst = true ∧ exec .faultNone s = .next t) ∧
    ∃ s t : State, s.released = false ∧ s.port.rst = false ∧ exec .idle s = .next t :=
  ⟨⟨_, rfl⟩, ⟨State.reset.setRst true, _, rfl, rfl, rfl⟩, ⟨{ State.reset with released := false }, _, rfl, rfl, rfl⟩⟩

theorem test_hyp_StepsOnlyAppendToTheTrace : ∃ t : State, step (during .gpio .gInit .init []) = .next t :=
  next_of_isNext (by decide)

theorem test_hyp_StepsKeepEveryHold :
    ∃ s t : State, HoldsKept s.world ∧ s.world.trace ≠ [] ∧ step s = .next t := by
  let s : State := { during .nes .sClkLo .read [] with world := { env := [], now := 12, tick := 0, trace := [⟨0, .dly 12⟩] } }
  obtain ⟨t, h⟩ := next_of_isNext (o := step s) (by decide)
  exact ⟨s, t, by decide, by decide, h⟩

theorem test_hyp_PhasesTakeTheirMinimumTimes :
    (∃ (q : Phase) (s t : State), exec (phaseInstr q) s = .next t ∧ minTime s.cfg.timing q = 12) ∧
    ∃ c : Timing, c.AtLeastLiterals := by
  obtain ⟨t, h⟩ := next_of_isNext (o := exec (phaseInstr .sLatchHi) (during .nes .sLatchHi .read [])) (by decide)
  exact ⟨⟨.sLatchHi, _, t, h, by decide⟩, ⟨_, literals_good .psx⟩⟩

theorem test_hyp_OnlyInitPhasesChangeModes :
    ∃ s t : State, s.port.rst = false ∧ step s = .next t ∧ t.mode ≠ s.mode ∧ hasRole s .latch = false := by
  refine ⟨during .psx .pInit .init [], _, by decide, rfl, by decide, by decide⟩

theorem test_hyp_StatusBitsHaveOneWriter :
    (∃ s t : State, s.port.rst = false ∧ step s = .next t ∧ t.inited ≠ s.inited) ∧
    ∃ s t : State, s.port.rst = false ∧ step s = .next t ∧ t.fault ≠ s.fault :=
  ⟨⟨during .nes .respond .init [], _, by decide, rfl, by decide⟩,
   ⟨{ State.reset with phase := .dispatch }, _, by decide, rfl, by decide⟩⟩

theorem test_hyp_MaskAndResponseWriters :
    (∃ s t : State, s.port.rst = false ∧ step s = .next t ∧ t.mask ≠ s.mask) ∧
    ∃ s t : State, s.port.rst = false ∧ step s = .next t ∧ t.rspValid = true :=
  ⟨⟨{ during .gpio .gDone .read [] with scr := 1#12 }, _, by decide, rfl, by decide⟩,
   ⟨during .gpio .respond .read [], _, by decide, rfl, by decide⟩⟩

theorem test_hyp_StepsKeepTheInvariant : ∃ s t : State, Inv s ∧ step s = .next t := by
  obtain ⟨t, h⟩ := next_of_isNext (o := step (pollOf .psx)) (by decide)
  exact ⟨_, t, inv_poll_psx, h⟩

theorem test_hyp_StepsStopOnlyAtThePort : ∃ s : State, Inv s ∧ step s = .refused .reservedCommand :=
  ⟨waiting .psx true 3#2 0#8, ⟨by decide, by decide, by decide, by decide⟩, rfl⟩

theorem test_hyp_EveryStepNearsTheResponse :
    (∃ s : State, Inv s ∧ s.port.rst = false ∧ inProgress s = true ∧ s.phase = .dispatch ∧ s.op = .init ∧ configured s = true) ∧
    ∃ s : State, Inv s ∧ s.port.rst = false ∧ inProgress s = true ∧ s.phase = .respond :=
  ⟨⟨initOf .psx, inv_init_psx, by decide, by decide, by decide, by decide, by decide⟩,
   ⟨during .snes .respond .read [], ⟨by decide, by decide, by decide, by decide⟩, by decide, by decide, by decide⟩⟩

theorem test_hyp_EveryAcceptedCommandEnds :
    (∃ s : State, Inv s ∧ s.port.rst = false ∧ s.phase = .dispatch ∧ s.op = .init ∧ configured s = true) ∧
    ∃ s t : State, Inv s ∧ s.port.rst = false ∧ s.phase = .dispatch ∧ s.op ≠ .init ∧ 11 < stepsLeft s ∧ Runs 11 s t := by
  obtain ⟨t, h⟩ := runs_of_isNext (n := 11) (s := pollOf .gpio) (by decide)
  exact ⟨⟨initOf .nes, inv_init_nes, by decide, by decide, by decide, by decide⟩,
    ⟨pollOf .gpio, t, inv_poll_gpio, by decide, by decide, by decide, by decide, h⟩⟩

theorem test_hyp_AcceptableCommandsAreLatched :
    (∃ s : State, s.phase = .idle ∧ s.fault = .ok ∧ s.inited = false) ∧ ∃ s : State, s.phase = .idle ∧ s.fault = .ok ∧ s.inited = true :=
  ⟨⟨State.reset, by decide⟩, ⟨waiting .nes true 1#2 0#8, by decide⟩⟩

theorem test_hyp_UnacceptableCommandsAreRefused :
    (∃ s : State, cmdReady s = true ∧ s.inited = true) ∧ (∃ s : State, cmdReady s = true ∧ s.inited = false) ∧
    ∃ s : State, cmdReady s = false :=
  ⟨⟨waiting .psx true 3#2 0#8, by decide⟩, ⟨State.reset, by decide⟩, ⟨pollOf .psx, by decide⟩⟩

theorem test_hyp_IdleTakesWhatThePortPresents :
    (∃ s : State, s.port.cmdValid = false) ∧ (∃ s : State, s.port.cmdValid = true ∧ s.phase = .idle ∧ s.fault = .ok) ∧
    (∃ s : State, s.phase ≠ .idle) ∧ (∃ s : State, cmdReady s = false ∧ HostDuty s) ∧ (∃ s : State, cmdReady s = true ∧ HostDuty s) ∧
    ∃ s t : State, HostDuty s ∧ s.port.cmdValid = true ∧ step s = .next t := by
  obtain ⟨t, h⟩ := next_of_isNext (o := step (waiting .nes true 1#2 0#8)) (by decide)
  exact ⟨⟨State.reset, by decide⟩, ⟨waiting .nes true 3#2 0#8, by decide⟩, ⟨pollOf .nes, by decide⟩, ⟨pollOf .nes, by decide⟩,
    ⟨State.reset, by decide⟩, ⟨_, t, by decide, by decide, h⟩⟩

theorem test_hyp_DispatchChecksThenJumps_init :
    (∃ s : State, s.op = .init ∧ variantOf s = .unselected) ∧
    (∃ s : State, s.op = .init ∧ variantOf s ≠ .unselected ∧ pinmapValid s.cfg = false) ∧
    ∀ v ∈ [Variant.gpio, .nes, .snes, .psx], ∃ s : State, s.op = .init ∧ pinmapValid s.cfg = true ∧ variantOf s = v :=
  ⟨⟨State.reset, by decide⟩,
   ⟨State.resetWith { Params.unconfigured with variant := 4#3 }, by decide⟩,
   fun v hv => ⟨initOf v, by fin_cases hv <;> decide⟩⟩

theorem test_hyp_DispatchChecksThenJumps_poll :
    (∀ v ∈ [Variant.gpio, .nes, .snes, .psx, .unselected], ∃ s : State, s.op ≠ .init ∧ variantOf s = v) ∧
    ∃ s : State, Inv s ∧ s.phase = .dispatch ∧ s.op ≠ .init :=
  ⟨fun v hv => ⟨pollOf v, by fin_cases hv <;> decide⟩, ⟨pollOf .psx, inv_poll_psx, by decide, by decide⟩⟩

theorem test_hyp_UnboundRoleIsBadPinmap :
    (∃ (s : State) (p : Role), hasRole s p = true ∧ s.cfg.pinmap.get p = none) ∧
    (∃ s : State, (variantOf s, s.cfg.pinmap) ∉ s.cfg.accepted ∧ ∀ p, hasRole s p = true → s.cfg.pinmap.get p ≠ none) ∧
    ∃ s : State, (variantOf s, s.cfg.pinmap) ∈ s.cfg.accepted ∧ ∀ p, hasRole s p = true → s.cfg.pinmap.get p ≠ none :=
  ⟨⟨State.resetWith { Params.unconfigured with variant := 3#3 }, .data, by decide⟩,
   ⟨State.resetWith { good .psx 0 with accepted := [] }, by decide,
     fun p _ => by cases p <;> simp [State.resetWith, good, RoleMap.get, RoleMap.const]⟩,
   ⟨State.resetWith (good .psx 0), by decide, fun p _ => by cases p <;> simp [State.resetWith, good, RoleMap.get, RoleMap.const]⟩⟩

theorem test_hyp_RespondPresentsTheResult : ∀ o : HostOp, ∃ s : State, s.op = o ∧ s.mask = 0x80#8 ∧ s.arg = 0x80#8 :=
  fun o => ⟨{ State.reset with op := o, mask := 0x80#8, arg := 0x80#8 }, rfl, rfl, rfl⟩

theorem test_hyp_HaltIsForEver : ∃ (s : State) (p : Port), s.phase = .halt ∧ s.port.rst = false ∧ p.rst = false ∧ p.cmdValid = true :=
  ⟨{ State.reset with phase := .halt, fault := .noVariant }, ⟨false, true, 1#2, 0#8⟩, by decide⟩

theorem test_hyp_VariantIsSelectedBeforeResetIsReleased :
    (∃ s : State, s.port.rst = true ∧ s.released = false) ∧ (∃ s : State, s.port.rst = false) ∧
    (∃ s : State, s.port.rst = true ∧ s.released = true) ∧
    (∃ s : State, s.cfg.variant = 7#3 ∧ variantOf s = .unselected) ∧ ∃ s : State, s.cfg.variant = 4#3 ∧ variantOf s ≠ .unselected :=
  ⟨⟨State.powerUp Params.unconfigured, rfl, rfl⟩, ⟨State.reset, rfl⟩, ⟨State.reset.setRst true, rfl, rfl⟩,
   ⟨State.resetWith { Params.unconfigured with variant := 7#3 }, by decide⟩,
   ⟨State.resetWith { Params.unconfigured with variant := 4#3 }, by decide⟩⟩

theorem test_hyp_ConfigurationPrimitivesSetTheMode :
    (∃ (s : State) (p : Role), hasRole s p = true ∧ p.isOutput = true) ∧
    (∃ (s : State) (p : Role), hasRole s p = true ∧ p.isPlainInput = true) ∧
    ∃ (s : State) (p : Role), hasRole s p = true ∧ p.isPulledInput = true :=
  ⟨⟨initOf .psx, .cmd, by decide⟩, ⟨initOf .nes, .data, by decide⟩, ⟨initOf .gpio, .btn 7, by decide⟩⟩

theorem test_hyp_DrvDrivesOneLine : ∃ (s : State) (p : Role), hasRole s p = true ∧ s.mode.get p = .out :=
  ⟨pollOf .snes, .clock, by decide⟩

theorem test_hyp_SmpObservesOneLine :
    (∃ (s : State) (p : Role), hasRole s p = true ∧ s.mode.get p = .inp) ∧
    ∃ (s : State) (p : Role), hasRole s p = true ∧ s.mode.get p = .inpPullUp :=
  ⟨⟨pollOf .psx, .dat, by decide⟩, ⟨pollOf .gpio, .btn 0, by decide⟩⟩

theorem test_hyp_PrimitivesStopOutsideTheirRequire :
    (∃ (s : State) (p : Role), hasRole s p = false) ∧
    (∃ (s : State) (p : Role), hasRole s p = true ∧ s.mode.get p ≠ .out ∧ p.isOutput = true) ∧
    ∃ (s : State) (p : Role), hasRole s p = true ∧ s.mode.get p ≠ .inp ∧ s.mode.get p ≠ .inpPullUp :=
  ⟨⟨initOf .nes, .dat, by decide⟩, ⟨initOf .nes, .latch, by decide⟩, ⟨initOf .nes, .data, by decide⟩⟩

theorem test_hyp_DirectInitPullsUpAndClearStartsAfresh : ∃ s : State, variantOf s = .gpio := ⟨initOf .gpio, by decide⟩

/-- The first line and the last. -/
theorem test_hyp_DirectSampleSetsOneBit :
    ∀ i ∈ [(0 : Fin 8), 7], ∃ s : State, s.bitcnt.toNat = i.val ∧ variantOf s = .gpio ∧ s.mode.get (.btn i) = .inpPullUp := by
  intro i hi
  refine ⟨{ during .gpio .gSmp .read [] with bitcnt := BitVec.ofNat 4 i.val }, ?_⟩
  fin_cases hi <;> decide

theorem test_hyp_DirectDoneMapsOneToOne : ∃ s : State, s.scr = 0x0A5#12 := ⟨{ State.reset with scr := 0x0A5#12 }, rfl⟩

theorem test_hyp_DirectPollReadsTheEightLines :
    ∃ s : State, Inv s ∧ s.port.rst = false ∧ s.phase = .dispatch ∧ s.op ≠ .init ∧ variantOf s = .gpio :=
  ⟨pollOf .gpio, inv_poll_gpio, by decide, by decide, by decide, by decide⟩

theorem test_hyp_ShiftInitRestsTheLines : (∃ s : State, variantOf s = .nes) ∧ ∃ s : State, variantOf s = .snes :=
  ⟨⟨initOf .nes, by decide⟩, ⟨initOf .snes, by decide⟩⟩

theorem test_hyp_ShiftLatchHighHoldsTheLatch :
    ∃ s : State, variantOf s = .snes ∧ s.mode.get .latch = .out ∧ s.cfg.timing.AtLeastLiterals ∧ Inv s ∧ s.phase = .sLatchHi :=
  ⟨during .snes .sLatchHi .read [], by decide, by decide, literals_good .snes, ⟨by decide, by decide, by decide, by decide⟩, by decide⟩

theorem test_hyp_ShiftLatchLowSettles :
    ∃ s : State, variantOf s = .nes ∧ s.mode.get .latch = .out ∧ s.cfg.timing.AtLeastLiterals :=
  ⟨during .nes .sLatchLo .read [], by decide, by decide, literals_good .nes⟩

/-- The last bit of each width. -/
theorem test_hyp_ShiftSampleSetsOneBit :
    (∃ s : State, variantOf s = .nes ∧ s.mode.get .data = .inp ∧ s.bitcnt.toNat = 7 ∧ s.bitcnt.toNat < 12) ∧
    ∃ s : State, variantOf s = .snes ∧ s.mode.get .data = .inp ∧ s.bitcnt.toNat = 11 ∧ s.bitcnt.toNat < 12 :=
  ⟨⟨{ during .nes .sSample .read [] with bitcnt := 7#4 }, by decide⟩, ⟨{ during .snes .sSample .read [] with bitcnt := 11#4 }, by decide⟩⟩

theorem test_hyp_ShiftClockLowHolds :
    ∃ s : State, variantOf s = .snes ∧ s.mode.get .clock = .out ∧ s.cfg.timing.AtLeastLiterals :=
  ⟨during .snes .sClkLo .read [], by decide, by decide, literals_good .snes⟩

theorem test_hyp_ShiftClockHighAdvances :
    (∃ s : State, variantOf s = .nes ∧ s.mode.get .clock = .out ∧ s.cfg.timing.AtLeastLiterals ∧ s.bitcnt.toNat = 7) ∧
    ∃ s : State, variantOf s = .snes ∧ s.mode.get .clock = .out ∧ s.cfg.timing.AtLeastLiterals ∧ s.bitcnt.toNat = 11 :=
  ⟨⟨{ during .nes .sClkHi .read [] with bitcnt := 7#4 }, by decide, by decide, literals_good .nes, by decide⟩,
   ⟨{ during .snes .sClkHi .read [] with bitcnt := 11#4 }, by decide, by decide, literals_good .snes, by decide⟩⟩

theorem test_hyp_ShiftRemapByVariant : (∃ s : State, variantOf s = .nes) ∧ ∃ s : State, variantOf s = .snes :=
  ⟨⟨pollOf .nes, by decide⟩, ⟨pollOf .snes, by decide⟩⟩

theorem test_hyp_SnesFoldTable : ∃ v : BitVec 12, (∀ k < 8, v.getLsbD k = false) ∧ v.getLsbD 11 = true :=
  ⟨0x800#12, by decide⟩

theorem test_hyp_ShiftPollReadsTheFrame :
    (∃ s : State, Inv s ∧ s.port.rst = false ∧ s.phase = .dispatch ∧ s.op ≠ .init ∧ s.cfg.timing.AtLeastLiterals ∧ variantOf s = .nes) ∧
    ∃ s : State, Inv s ∧ s.port.rst = false ∧ s.phase = .dispatch ∧ s.op ≠ .init ∧ s.cfg.timing.AtLeastLiterals ∧ variantOf s = .snes :=
  ⟨⟨pollOf .nes, inv_poll_nes, by decide, by decide, by decide, literals_good .nes, by decide⟩,
   ⟨pollOf .snes, inv_poll_snes, by decide, by decide, by decide, literals_good .snes, by decide⟩⟩

theorem test_hyp_SerialInitRestsTheLines : ∃ s : State, variantOf s = .psx := ⟨initOf .psx, by decide⟩

theorem test_hyp_SerialFrameStartsWithAttention :
    (∃ s : State, s.cfg.timing.AtLeastLiterals) ∧ ∃ s : State, variantOf s = .psx ∧ s.mode.get .att = .out :=
  ⟨⟨pollOf .psx, literals_good .psx⟩, ⟨pollOf .psx, by decide⟩⟩

/-- The byte indexes where the clauses meet. -/
theorem test_hyp_SerialLoadPicksTheByte :
    (∃ s : State, s.prime = true) ∧ ∀ k < 8, ∃ s : State, s.prime = false ∧ s.bytecnt.toNat = k := by
  refine ⟨⟨during .psx .pLoad .init [], by decide⟩, fun k hk => ⟨{ State.reset with bytecnt := BitVec.ofNat 3 k }, rfl, ?_⟩⟩
  simp [Nat.mod_eq_of_lt hk]

theorem test_hyp_SerialBitGoesOut :
    (∃ s : State, variantOf s = .psx ∧ s.mode.get .cmd = .out ∧ s.bitcnt.toNat < 8 ∧ s.bitcnt.toNat = 7) ∧
    ∃ s : State, variantOf s = .psx ∧ s.mode.get .clk = .out :=
  ⟨⟨{ during .psx .xCmd .read [] with bitcnt := 7#4 }, by decide⟩, ⟨during .psx .xClkLo .read [], by decide⟩⟩

theorem test_hyp_SerialBitComesIn :
    ∃ s : State, variantOf s = .psx ∧ s.mode.get .clk = .out ∧ s.mode.get .dat = .inp ∧ s.bitcnt.toNat < 8 ∧ s.bitcnt.toNat = 7 :=
  ⟨{ during .psx .xClkHi .read [] with bitcnt := 7#4 }, by decide⟩

theorem test_hyp_SerialBitHoldAdvances :
    ∃ s : State, s.cfg.timing.AtLeastLiterals ∧ s.bitcnt.toNat < 8 ∧ s.bitcnt.toNat = 7 :=
  ⟨{ during .psx .xHold .read [] with bitcnt := 7#4 }, literals_good .psx, by decide, by decide⟩

theorem test_hyp_SerialStoreKeepsTheByte :
    (∃ s : State, s.bytecnt.toNat < 5 ∧ s.prime = true) ∧ ∃ s : State, s.bytecnt.toNat < 5 ∧ s.bytecnt.toNat = 4 ∧ s.prime = false :=
  ⟨⟨during .psx .pStore .init [], by decide⟩, ⟨{ during .psx .pStore .read [] with bytecnt := 4#3 }, by decide⟩⟩

theorem test_hyp_SerialFrameEndsWithAttention :
    (∃ s : State, variantOf s = .psx ∧ s.mode.get .att = .out ∧ s.prime = true ∧ s.framecnt = 0#2) ∧
    (∀ k ∈ [1#2, 2#2], ∃ s : State, variantOf s = .psx ∧ s.mode.get .att = .out ∧ s.prime = true ∧ s.framecnt = k) ∧
    ∃ s : State, variantOf s = .psx ∧ s.mode.get .att = .out ∧ s.prime = false :=
  ⟨⟨during .psx .pAttHi .init [], by decide⟩,
   fun k hk => ⟨{ during .psx .pAttHi .init [] with framecnt := k }, by fin_cases hk <;> decide⟩,
   ⟨during .psx .pAttHi .read [], by decide⟩⟩

theorem test_hyp_SerialRemapTakesTheLastTwoBytes : ∃ s : State, s.rxbuf[3] = 0x10#8 ∧ s.rxbuf[4] = 0x40#8 :=
  ⟨{ State.reset with rxbuf := #v[0#8, 0#8, 0#8, 0x10#8, 0x40#8] }, rfl, rfl⟩

theorem test_hyp_ByteTransferIsFullDuplex :
    ∃ s : State, variantOf s = .psx ∧ s.mode.get .cmd = .out ∧ s.mode.get .clk = .out ∧ s.mode.get .dat = .inp ∧
      s.cfg.timing.AtLeastLiterals :=
  ⟨during .psx .pLoad .read [], by decide, by decide, by decide, by decide, literals_good .psx⟩

theorem test_hyp_PhasesRefineTheByteTransfer :
    (∃ s t : State, s.phase = .pLoad ∧ s.port.rst = false ∧ s.prime = true ∧ Runs 33 s t) ∧
    ∃ s t : State, s.phase = .pLoad ∧ s.port.rst = false ∧ s.prime = false ∧ s.bytecnt.toNat = 4 ∧
      exec .txPad { s with rspValid := false } = .next t := by
  obtain ⟨t, h⟩ := runs_of_isNext (n := 33) (s := during .psx .pLoad .init (List.replicate 8 .L)) (by decide)
  obtain ⟨u, k⟩ := next_of_isNext (o := exec .txPad { during .psx .pLoad .read (List.replicate 8 .L) with bytecnt := 4#3 }) (by decide)
  exact ⟨⟨_, t, by decide, by decide, by decide, h⟩,
    ⟨{ during .psx .pLoad .read (List.replicate 8 .L) with bytecnt := 4#3 }, u, by decide, by decide, by decide, by decide, k⟩⟩

theorem test_hyp_SerialPollReadsTheField :
    ∃ s : State, Inv s ∧ s.port.rst = false ∧ s.phase = .dispatch ∧ s.op ≠ .init ∧ variantOf s = .psx ∧ s.cfg.timing.AtLeastLiterals :=
  ⟨pollOf .psx, inv_poll_psx, by decide, by decide, by decide, by decide, literals_good .psx⟩

theorem test_hyp_InitLeavesTheReaderReady :
    ∀ v ∈ [Variant.gpio, .nes, .snes, .psx], ∃ s : State, Inv s ∧ s.port.rst = false ∧ s.phase = .dispatch ∧ s.op = .init ∧
      configured s = true ∧ s.cfg.timing.AtLeastLiterals ∧ variantOf s = v := by
  intro v hv
  refine ⟨initOf v, ?_, ?_⟩
  · fin_cases hv
    exacts [inv_init_gpio, inv_init_nes, inv_init_snes, inv_init_psx]
  · fin_cases hv <;> decide

theorem test_hyp_PollsDependOnTheirSamplesOnly :
    ∃ (s₁ s₂ t₁ t₂ : State) (ls : List Level), Inv s₁ ∧ Inv s₂ ∧ s₁.port.rst = false ∧ s₂.port.rst = false ∧
      s₁.phase = .dispatch ∧ s₂.phase = .dispatch ∧ s₁.op ≠ .init ∧ s₂.op ≠ .init ∧ variantOf s₁ = variantOf s₂ ∧
      s₁.cfg.timing.AtLeastLiterals ∧ s₂.cfg.timing.AtLeastLiterals ∧ 40 ≤ ls.length ∧
      ls.map some <+: s₁.world.env ∧ ls.map some <+: s₂.world.env ∧
      Runs (stepsLeft s₁) s₁ t₁ ∧ Runs (stepsLeft s₂) s₂ t₂ ∧ s₁.mask ≠ s₂.mask := by
  obtain ⟨t₁, h₁⟩ := runs_of_isNext (n := 12) (s := pollOf .gpio) (by decide)
  obtain ⟨t₂, h₂⟩ := runs_of_isNext (n := 12) (s := { pollOf .gpio with mask := 0xFF#8 }) (by decide)
  exact ⟨pollOf .gpio, { pollOf .gpio with mask := 0xFF#8 }, t₁, t₂, List.replicate 40 .L, inv_poll_gpio,
    ⟨by decide, by decide, by decide, by decide⟩, by decide, by decide, by decide, by decide, by decide, by decide, by decide,
    literals_good .gpio, literals_good .gpio, by decide, by decide, by decide, h₁, h₂, by decide⟩

end Sys2Proof.Tests
end

section
/-! The direct GPIO reader (R163). -/
namespace Sys2Proof.Proofs.DirectGpio
open Sys2Proof Sys2Proof.Machine

/-- `REMAP_GPIO` keeps every line at its place (R92, R163). -/
theorem getLsbD_remapGpioFn (v : BitVec 12) {k : Nat} (hk : k < 8) : (remapGpioFn v).getLsbD k = v.getLsbD k := by
  simp [remapGpioFn, hk]

/-- G_DONE writes `MASK` and `PHASE` only (R163). -/
theorem exec_gDone (s : State) : exec .gDone s = .next { s with mask := remapGpioFn s.scr, phase := .respond } :=
  goto_next .respond { s with mask := remapGpioFn s.scr }

/-- Settles O35: the new `MASK` is `remapGpioFn SCR`, whose bits are those of `SCR` at the same places. -/
theorem directDoneMapsOneToOne : Obligations.DirectDoneMapsOneToOne := by
  unfold Obligations.DirectDoneMapsOneToOne
  constructor
  · intro s
    exact ⟨remapGpioFn s.scr, exec_gDone s, fun _ hk => getLsbD_remapGpioFn s.scr hk⟩
  · intro s hscr
    have hmask : remapGpioFn 0x0A5#12 = 0xA5#8 := by decide
    rw [exec_gDone, hscr, hmask]

end Sys2Proof.Proofs.DirectGpio
end

section
/-! The end of a serial frame (R210). -/
namespace Sys2Proof.Proofs.SerialFrame
open Sys2Proof Sys2Proof.Machine

theorem hasRole_att_of_psx {s : State} (hv : variantOf s = .psx) : hasRole s .att = true := by
  simp [hasRole, hv, Variant.roles]

/-- The state after `DRV(ATT, H)`: attention is released and the event recorded, nothing else changes (R143, R210). -/
def releaseAtt (s : State) : State := emit (.drv .att .H) { s with outlvl := s.outlvl.put .att (some .H) }

@[simp] theorem releaseAtt_prime (s : State) : (releaseAtt s).prime = s.prime := rfl
@[simp] theorem releaseAtt_framecnt (s : State) : (releaseAtt s).framecnt = s.framecnt := rfl

theorem drive_att_high {s : State} (hv : variantOf s = .psx) (hm : s.mode.get .att = .out) :
    drive .att .H s = .next (releaseAtt s) :=
  drive_next.mpr ⟨hasRole_att_of_psx hv, hm, rfl⟩

/-- P_ATT_HI counts a priming frame and goes back for another while fewer than `N_PRIME` are done (R210, R215). -/
theorem exec_pAttHi_of_frames_left {s : State} (hv : variantOf s = .psx) (hm : s.mode.get .att = .out) (hp : s.prime = true)
    (hk : (s.framecnt + 1#2).toNat < nPrime) :
    exec .pAttHi s = .next { releaseAtt s with framecnt := s.framecnt + 1#2, phase := .pSettle } := by
  simp only [exec, execPAttHi, drive_att_high hv hm, andThen_next, releaseAtt_prime, releaseAtt_framecnt, hp, if_true, if_pos hk,
    goto_next]

/-- P_ATT_HI ends the priming when the counted frame is the last (R210, R215). -/
theorem exec_pAttHi_of_last_frame {s : State} (hv : variantOf s = .psx) (hm : s.mode.get .att = .out) (hp : s.prime = true)
    (hk : nPrime ≤ (s.framecnt + 1#2).toNat) :
    exec .pAttHi s = .next { releaseAtt s with framecnt := s.framecnt + 1#2, prime := false, phase := .respond } := by
  simp only [exec, execPAttHi, drive_att_high hv hm, andThen_next, releaseAtt_prime, releaseAtt_framecnt, hp, if_true,
    if_neg (Nat.not_lt.mpr hk), goto_next]

/-- Outside the priming exchange P_ATT_HI counts nothing and goes to the remap (R210). -/
theorem exec_pAttHi_of_poll {s : State} (hv : variantOf s = .psx) (hm : s.mode.get .att = .out) (hp : s.prime = false) :
    exec .pAttHi s = .next { releaseAtt s with phase := .pRemap } := by
  simp [exec, execPAttHi, drive_att_high hv hm, hp]

/-- A counter as wide as `FRAMECNT` does not wrap when it counts a frame from 2 or less (R31, log 23). -/
theorem toNat_add_one_of_le_two {k : BitVec 2} (hk : k.toNat ≤ 2) : (k + 1#2).toNat = k.toNat + 1 :=
  BitVec.toNat_add_of_lt (by simpa using Nat.lt_succ_of_le (Nat.succ_le_succ hk))

/-- Settles O53: from `FRAMECNT = 0` the count is still below `N_PRIME`, from 1 and 2 it is not, and a poll counts nothing. -/
theorem serialFrameEndsWithAttention : Obligations.SerialFrameEndsWithAttention := by
  unfold Obligations.SerialFrameEndsWithAttention
  intro s hv hm
  refine ⟨(releaseAtt s).world, happened_emit _ _, fun hp hzero => ?firstFrame, fun hp hlo hhi => ?lastFrame, fun hp => ?poll⟩
  case firstFrame =>
    have hcount : s.framecnt + 1#2 = 1#2 := by rw [hzero]; rfl
    have hleft : (s.framecnt + 1#2).toNat < nPrime := by rw [hcount]; decide
    rw [exec_pAttHi_of_frames_left hv hm hp hleft, hcount]
    rfl
  case lastFrame =>
    have hsucc : (s.framecnt + 1#2).toNat = s.framecnt.toNat + 1 := toNat_add_one_of_le_two hhi
    have hlast : nPrime ≤ (s.framecnt + 1#2).toNat := hsucc ▸ Nat.succ_le_succ hlo
    have hcount : s.framecnt + 1#2 = BitVec.ofNat 2 (s.framecnt.toNat + 1) := by
      rw [← hsucc, BitVec.ofNat_toNat, BitVec.setWidth_eq]
    rw [exec_pAttHi_of_last_frame hv hm hp hlast, hcount]
    rfl
  case poll => exact exec_pAttHi_of_poll hv hm hp

end Sys2Proof.Proofs.SerialFrame
end

section
/-! The decoder and the encoder are inverse to each other (R90 to R105), and a step runs what decoding finds (R28, R122). -/
namespace Sys2Proof.Proofs.Encoding
open Sys2Proof Sys2Proof.Machine

/-! ### Rows of fixed codes -/

theorem decodeRow_eq_ok {table : List (Byte × Instr)} {width : Nat} {why : DecodeError} {bs rest : List Byte} {i : Instr}
    (h : decodeRow table width why bs = .ok i rest) : ∃ b, bs = b :: rest ∧ (b, i) ∈ table := by
  cases bs with
  | nil => simp [decodeRow] at h
  | cons b bs =>
    cases hrow : table.lookup b with
    | none =>
      simp only [decodeRow, hrow] at h
      split at h <;> simp at h
    | some j =>
      simp only [decodeRow, hrow, Decoded.ok.injEq] at h
      obtain ⟨rfl, rfl⟩ := h
      obtain ⟨before, after, htable, -⟩ := List.lookup_eq_some_iff.mp hrow
      exact ⟨b, rfl, by simp [htable]⟩

/-- Every row of the table is a well-formed operation of the format, and its code is the row's. -/
def RowsOf (f : Format) (table : List (Byte × Instr)) : Prop :=
  ∀ row ∈ table, row.2.wellFormed = true ∧ formatOf row.2 = f ∧ encode row.2 = [row.1]

theorem rowsOf_phaseTable : RowsOf .phase phaseTable := by unfold RowsOf; decide
theorem rowsOf_byteTable : RowsOf .byte byteTable := by unfold RowsOf; decide
theorem rowsOf_faultTable : RowsOf .fault faultTable := by unfold RowsOf; decide

/-- The rows of F-VARIANT below code 5 are written back; those from 5 on stand for `NONE` (R100). -/
theorem variantTable_rows :
    ∀ row ∈ variantTable, row.2.wellFormed = true ∧ formatOf row.2 = .variant ∧
      (encode row.2 = [row.1] ∨ (row.2 = .variantNone ∧ 5 ≤ row.1.toNat ∧ row.1.toNat ≤ 7)) := by decide

/-! ### Operands -/

theorem roleOfByte_roleByte {roles : List Role} {p : Role} (hlen : roles.length ≤ 256) (hp : p ∈ roles) :
    roleOfByte roles (roleByte roles p) = some p := by
  have hlt : roles.idxOf p < 2 ^ 8 := lt_of_lt_of_le (List.idxOf_lt_length_of_mem hp) hlen
  rw [roleOfByte, roleByte, BitVec.toNat_ofNat, Nat.mod_eq_of_lt hlt, List.getElem?_idxOf hp]

theorem roleByte_of_roleOfByte {roles : List Role} (hnd : roles.Nodup) {b : Byte} {p : Role}
    (h : roleOfByte roles b = some p) : p ∈ roles ∧ roleByte roles p = b := by
  obtain ⟨hlt, rfl⟩ := List.getElem?_eq_some_iff.mp h
  exact ⟨List.getElem_mem hlt, by simp [roleByte, hnd.idxOf_getElem]⟩

theorem levelOfByte_levelByte (l : Level) : levelOfByte (levelByte l) = some l := by cases l <;> decide

theorem levelByte_of_levelOfByte {b : Byte} {l : Level} (h : levelOfByte b = some l) : levelByte l = b := by
  unfold levelOfByte at h
  split_ifs at h with hlow hhigh
  · cases h
    exact hlow.symm
  · cases h
    exact hhigh.symm

theorem mem_allRoles (p : Role) : p ∈ allRoles := by
  cases p with
  | btn i => revert i; decide
  | _ => decide

theorem mem_outRoles_iff (p : Role) : p ∈ outRoles ↔ p.isOutput = true := by
  cases p with
  | btn i => revert i; decide
  | _ => decide

theorem mem_smpRoles_iff (p : Role) : p ∈ smpRoles ↔ (p.isPlainInput || p.isPulledInput) = true := by
  cases p with
  | btn i => revert i; decide
  | _ => decide

/-- A number of more than eight bits is its low byte and what stands above it (the low byte first, log 18). -/
theorem high_append_low {n w : Nat} (x : BitVec w) (h : w = n + 8) :
    ((x >>> 8).setWidth n ++ x.setWidth 8).setWidth w = x := by
  subst h
  ext k hk
  by_cases h8 : k < 8 <;> simp [BitVec.getElem_append, h8] <;> grind

theorem setWidth_low_append {m n : Nat} (hi : BitVec m) (lo : BitVec n) : (hi ++ lo).setWidth n = lo := by
  simp [BitVec.setWidth_append]

theorem setWidth_high_append {m n : Nat} (hi : BitVec m) (lo : BitVec n) : ((hi ++ lo) >>> n).setWidth m = hi := by
  ext k hk
  simp [BitVec.getLsbD_append, hk]

theorem bytes_of_append (hi lo : Byte) : [(hi ++ lo).setWidth 8, ((hi ++ lo) >>> 8).setWidth 8] = [lo, hi] := by
  rw [setWidth_low_append, setWidth_high_append]

/-! ### One role operand -/

theorem decodeRole_roleByte {roles : List Role} {p : Role} (hlen : roles.length ≤ 256) (hp : p ∈ roles) (mk : Role → Instr)
    (rest : List Byte) : decodeRole roles mk (roleByte roles p :: rest) = .ok (mk p) rest := by
  simp [decodeRole, roleOfByte_roleByte hlen hp]

theorem decodeRole_eq_ok {roles : List Role} (hnd : roles.Nodup) {mk : Role → Instr} {bs rest : List Byte} {i : Instr}
    (h : decodeRole roles mk bs = .ok i rest) : ∃ p ∈ roles, i = mk p ∧ bs = roleByte roles p :: rest := by
  cases bs with
  | nil => simp [decodeRole] at h
  | cons b bs =>
    cases hrole : roleOfByte roles b with
    | none => simp [decodeRole, hrole] at h
    | some p =>
      simp only [decodeRole, hrole, Decoded.ok.injEq] at h
      obtain ⟨rfl, rfl⟩ := h
      obtain ⟨hmem, rfl⟩ := roleByte_of_roleOfByte hnd hrole
      exact ⟨p, hmem, rfl, rfl⟩

theorem decodeDrv_eq_ok {bs rest : List Byte} {i : Instr} (h : decodeDrv bs = .ok i rest) :
    ∃ p l, p ∈ outRoles ∧ i = .drv p l ∧ bs = roleByte outRoles p :: levelByte l :: rest := by
  match bs with
  | [] => simp [decodeDrv] at h
  | [_] => simp [decodeDrv] at h
  | r :: v :: bs =>
    cases hrole : roleOfByte outRoles r with
    | none => simp [decodeDrv, hrole] at h
    | some p =>
      cases hlevel : levelOfByte v with
      | none => simp [decodeDrv, hrole, hlevel] at h
      | some l =>
        simp only [decodeDrv, hrole, hlevel, Decoded.ok.injEq] at h
        obtain ⟨rfl, rfl⟩ := h
        obtain ⟨hmem, rfl⟩ := roleByte_of_roleOfByte (by decide) hrole
        exact ⟨p, l, hmem, rfl, by rw [levelByte_of_levelOfByte hlevel]⟩

/-! ### Decoding what was encoded -/

theorem high_append_low_16 (x : BitVec 16) : (x >>> 8).setWidth 8 ++ x.setWidth 8 = x := by
  simpa using high_append_low (n := 8) x rfl

theorem high_append_low_12 (x : BitVec 12) : (x >>> 8).setWidth 4 ++ x.setWidth 8 = x := by
  simpa using high_append_low (n := 4) x rfl

theorem decodeSr12_encode (v : BitVec 12) (rest : List Byte) : decodeSr12 (encode (.remapSnes v) ++ rest) = .ok (.remapSnes v) rest := by
  have hhigh : ((v >>> 8).setWidth 8).toNat < 16 := by
    have := v.isLt
    simp only [BitVec.toNat_setWidth, BitVec.toNat_ushiftRight, Nat.shiftRight_eq_div_pow]
    omega
  have hnarrow : ((v >>> 8).setWidth 8).setWidth 4 = (v >>> 8).setWidth 4 := by simp
  simp only [encode, List.cons_append, List.nil_append, decodeSr12, if_pos hhigh, hnarrow, high_append_low_12]

/-- Settles O5: a fixed code is looked up in its table, a role by its place in the list of roles, a number by its two bytes. -/
theorem decodeUndoesEncode : Obligations.DecodeUndoesEncode := by
  unfold Obligations.DecodeUndoesEncode
  intro i hwf rest
  cases i
  case init | read | ispressed | cmdReserved => rfl
  case cfgOut p => exact decodeRole_roleByte (by decide) (mem_allRoles p) _ _
  case cfgIn p => exact decodeRole_roleByte (by decide) (mem_allRoles p) _ _
  case cfgInPu p => exact decodeRole_roleByte (by decide) (mem_allRoles p) _ _
  case smp p => exact decodeRole_roleByte (by decide) ((mem_smpRoles_iff p).mpr hwf) _ _
  case drv p l =>
    have hrole := roleOfByte_roleByte (by decide) ((mem_outRoles_iff p).mpr hwf)
    simp [decode, formatOf, encode, decodeTrace, decodeDrv, hrole, levelOfByte_levelByte]
  case dly t => simp [decode, formatOf, encode, decodeTrace, decodeDly, high_append_low_16]
  case remapNes | remapGpio => rfl
  case remapSnes v => exact decodeSr12_encode v rest
  case remapPsx f => simp [decode, formatOf, encode, decodeFrame, high_append_low_16]
  all_goals rfl

/-! ### Encoding what was decoded -/

/-- The bytes are read as an operation of the format, and writing it gives them back. -/
def WrittenBack (f : Format) (bs : List Byte) (i : Instr) (rest : List Byte) : Prop :=
  i.wellFormed = true ∧ formatOf i = f ∧ encode i ++ rest = bs

theorem writtenBack_of_rowsOf {f : Format} {table : List (Byte × Instr)} (hrows : RowsOf f table) {width : Nat} {why : DecodeError}
    {bs rest : List Byte} {i : Instr} (h : decodeRow table width why bs = .ok i rest) : WrittenBack f bs i rest := by
  obtain ⟨b, rfl, hmem⟩ := decodeRow_eq_ok h
  obtain ⟨hwf, hfmt, henc⟩ := hrows _ hmem
  exact ⟨hwf, hfmt, by rw [henc]; rfl⟩

theorem cmdInstr_code (o : BitVec 2) (a : Byte) :
    (cmdInstr o a).wellFormed = true ∧ formatOf (cmdInstr o a) = .cmd ∧ encode (cmdInstr o a) = [a, o.setWidth 8] := by
  have hcode : o = 0#2 ∨ o = 1#2 ∨ o = 2#2 ∨ o = 3#2 := by revert o; decide
  rcases hcode with rfl | rfl | rfl | rfl <;> exact ⟨rfl, rfl, rfl⟩

theorem writtenBack_cmd {bs rest : List Byte} {i : Instr} (h : decodeCmd bs = .ok i rest) : WrittenBack .cmd bs i rest := by
  match bs with
  | [] => simp [decodeCmd] at h
  | [_] => simp [decodeCmd] at h
  | a :: o :: bs =>
    by_cases hlt : o.toNat < 4
    · simp only [decodeCmd, if_pos hlt, Decoded.ok.injEq] at h
      obtain ⟨rfl, rfl⟩ := h
      obtain ⟨hwf, hfmt, henc⟩ := cmdInstr_code (o.setWidth 2) a
      have hwide : (o.setWidth 2).setWidth 8 = o := by
        apply BitVec.eq_of_toNat_eq
        rw [BitVec.toNat_setWidth, BitVec.toNat_setWidth, Nat.mod_eq_of_lt hlt, Nat.mod_eq_of_lt o.isLt]
      exact ⟨hwf, hfmt, by rw [henc, hwide]; rfl⟩
    · simp [decodeCmd, hlt] at h

theorem writtenBack_role {roles : List Role} (hnd : roles.Nodup) {mk : Role → Instr} {tag : Byte}
    (hmk : ∀ p ∈ roles, (mk p).wellFormed = true ∧ formatOf (mk p) = .trace ∧ encode (mk p) = [tag, roleByte roles p])
    {bs rest : List Byte} {i : Instr} (h : decodeRole roles mk bs = .ok i rest) : WrittenBack .trace (tag :: bs) i rest := by
  obtain ⟨p, hp, rfl, rfl⟩ := decodeRole_eq_ok hnd h
  obtain ⟨hwf, hfmt, henc⟩ := hmk p hp
  exact ⟨hwf, hfmt, by rw [henc]; rfl⟩

theorem writtenBack_drv {bs rest : List Byte} {i : Instr} (h : decodeDrv bs = .ok i rest) : WrittenBack .trace (3#8 :: bs) i rest := by
  obtain ⟨p, l, hp, rfl, rfl⟩ := decodeDrv_eq_ok h
  exact ⟨(mem_outRoles_iff p).mp hp, rfl, rfl⟩

theorem writtenBack_dly {bs rest : List Byte} {i : Instr} (h : decodeDly bs = .ok i rest) : WrittenBack .trace (5#8 :: bs) i rest := by
  match bs with
  | [] => simp [decodeDly] at h
  | [_] => simp [decodeDly] at h
  | lo :: hi :: bs =>
    simp only [decodeDly, Decoded.ok.injEq] at h
    obtain ⟨rfl, rfl⟩ := h
    exact ⟨rfl, rfl, congrArg (fun bytes => 5#8 :: bytes ++ bs) (bytes_of_append hi lo)⟩

theorem writtenBack_trace {bs rest : List Byte} {i : Instr} (h : decodeTrace bs = .ok i rest) : WrittenBack .trace bs i rest := by
  cases bs with
  | nil => simp [decodeTrace] at h
  | cons t bs =>
    simp only [decodeTrace] at h
    split_ifs at h with h0 h1 h2 h3 h4 h5
    · exact h0 ▸ writtenBack_role (by decide) (fun _ _ => ⟨rfl, rfl, rfl⟩) h
    · exact h1 ▸ writtenBack_role (by decide) (fun _ _ => ⟨rfl, rfl, rfl⟩) h
    · exact h2 ▸ writtenBack_role (by decide) (fun _ _ => ⟨rfl, rfl, rfl⟩) h
    · exact h3 ▸ writtenBack_drv h
    · exact h4 ▸ writtenBack_role (mk := .smp) (by decide) (fun p hp => ⟨(mem_smpRoles_iff p).mp hp, rfl, rfl⟩) h
    · exact h5 ▸ writtenBack_dly h

theorem bytes_of_append_narrow {hi : Byte} (lo : Byte) (hlt : hi.toNat < 16) :
    [(hi.setWidth 4 ++ lo).setWidth 8, ((hi.setWidth 4 ++ lo) >>> 8).setWidth 8] = [lo, hi] := by
  have hwide : ((hi.setWidth 4 ++ lo) >>> 8).setWidth 8 = hi := by
    apply BitVec.eq_of_toNat_eq
    rw [BitVec.toNat_setWidth, BitVec.toNat_ushiftRight, BitVec.toNat_append, BitVec.toNat_setWidth, Nat.mod_eq_of_lt hlt,
      ← Nat.shiftLeft_add_eq_or_of_lt lo.isLt, Nat.shiftLeft_eq, Nat.shiftRight_eq_div_pow]
    omega
  rw [setWidth_low_append, hwide]

theorem writtenBack_sr12 {bs rest : List Byte} {i : Instr} (h : decodeSr12 bs = .ok i rest) : WrittenBack .sr12 bs i rest := by
  match bs with
  | [] => simp [decodeSr12] at h
  | [_] => simp [decodeSr12] at h
  | lo :: hi :: bs =>
    by_cases hlt : hi.toNat < 16
    · simp only [decodeSr12, if_pos hlt, Decoded.ok.injEq] at h
      obtain ⟨rfl, rfl⟩ := h
      exact ⟨rfl, rfl, congrArg (· ++ bs) (bytes_of_append_narrow lo hlt)⟩
    · simp [decodeSr12, hlt] at h

theorem writtenBack_frame {bs rest : List Byte} {i : Instr} (h : decodeFrame bs = .ok i rest) : WrittenBack .frame bs i rest := by
  match bs with
  | [] => simp [decodeFrame] at h
  | [_] => simp [decodeFrame] at h
  | lo :: hi :: bs =>
    simp only [decodeFrame, Decoded.ok.injEq] at h
    obtain ⟨rfl, rfl⟩ := h
    exact ⟨rfl, rfl, congrArg (· ++ bs) (bytes_of_append hi lo)⟩

theorem writtenBack_operand8 {f : Format} {mk : BitVec 8 → Instr}
    (hmk : ∀ v, (mk v).wellFormed = true ∧ formatOf (mk v) = f ∧ encode (mk v) = [v]) {bs rest : List Byte} {i : Instr}
    (h : decodeOperand8 mk bs = .ok i rest) : WrittenBack f bs i rest := by
  cases bs with
  | nil => simp [decodeOperand8] at h
  | cons b bs =>
    simp only [decodeOperand8, Decoded.ok.injEq] at h
    obtain ⟨rfl, rfl⟩ := h
    obtain ⟨hwf, hfmt, henc⟩ := hmk b
    exact ⟨hwf, hfmt, by rw [henc]; rfl⟩

/-- In every format but F-VARIANT what decodes is written back. -/
theorem writtenBack_of_decode {f : Format} (hf : f ≠ .variant) {bs rest : List Byte} {i : Instr} (h : decode f bs = .ok i rest) :
    WrittenBack f bs i rest := by
  cases f with
  | cmd => exact writtenBack_cmd h
  | phase => exact writtenBack_of_rowsOf rowsOf_phaseTable h
  | trace => exact writtenBack_trace h
  | byte => exact writtenBack_of_rowsOf rowsOf_byteTable h
  | sr8 => exact writtenBack_operand8 (mk := .remapNes) (fun _ => ⟨rfl, rfl, rfl⟩) h
  | gpio => exact writtenBack_operand8 (mk := .remapGpio) (fun _ => ⟨rfl, rfl, rfl⟩) h
  | sr12 => exact writtenBack_sr12 h
  | frame => exact writtenBack_frame h
  | fault => exact writtenBack_of_rowsOf rowsOf_faultTable h
  | variant => exact absurd rfl hf

/-- Settles O6: format by format; only the rows 5 to 7 of F-VARIANT are not the code of the operation they stand for. -/
theorem encodeUndoesDecode : Obligations.EncodeUndoesDecode := by
  unfold Obligations.EncodeUndoesDecode
  intro f bs i rest h
  by_cases hf : f = .variant
  · subst hf
    obtain ⟨b, rfl, hmem⟩ := decodeRow_eq_ok h
    obtain ⟨hwf, hfmt, hcode⟩ := variantTable_rows _ hmem
    refine ⟨hwf, hfmt, ?_⟩
    rcases hcode with henc | ⟨hnone, hlo, hhi⟩
    · exact .inl (by rw [henc]; rfl)
    · exact .inr ⟨rfl, hnone, b, hlo, hhi, rfl⟩
  · obtain ⟨hwf, hfmt, henc⟩ := writtenBack_of_decode hf h
    exact ⟨hwf, hfmt, .inl henc⟩

/-- Settles O4: each word is looked up in its table. -/
theorem wordsOfTheTablesDecode : Obligations.WordsOfTheTablesDecode := by
  unfold Obligations.WordsOfTheTablesDecode
  decide

/-! ### The operation a step runs -/

theorem phaseInstr_wellFormed (q : Phase) : (phaseInstr q).wellFormed = true := by cases q <;> rfl

theorem formatOf_phaseInstr (q : Phase) : formatOf (phaseInstr q) = .phase := by cases q <;> rfl

/-- What `fetch` answers is a well-formed operation written as the bytes at the port or in `PHASE`. -/
theorem fetch_encoding (s : State) :
    (fetch s).wellFormed = true ∧ formatOf (fetch s) = fetchFormat s ∧ encode (fetch s) = fetchBytes s := by
  by_cases h : commandSeen s = true
  · simpa [fetch, fetchFormat, fetchBytes, h] using cmdInstr_code s.port.cmdOp s.port.cmdArg
  · simp [fetch, fetchFormat, fetchBytes, h, phaseInstr_wellFormed, formatOf_phaseInstr]

/-- Settles O3: the fetched operation is the decoding of its own encoding. -/
theorem stepRunsTheDecodedOperation : Obligations.StepRunsTheDecodedOperation := by
  unfold Obligations.StepRunsTheDecodedOperation
  intro s hrst
  obtain ⟨hwf, hfmt, henc⟩ := fetch_encoding s
  have hdecode := decodeUndoesEncode (fetch s) hwf []
  rw [hfmt, henc, List.append_nil] at hdecode
  exact ⟨fetch s, hdecode, hwf, by rw [step, hrst]; rfl⟩

end Sys2Proof.Proofs.Encoding
end

section
/-! Maps over the pin roles, by the value they hold for each role. -/
namespace Sys2Proof.Proofs.RoleMaps
open Sys2Proof Sys2Proof.Machine

variable {α : Type}

theorem get_put (m : RoleMap α) (p q : Role) (a : α) : (m.put p a).get q = if p = q then a else m.get q := by
  by_cases h : p = q
  · subst h
    simp
  · simp [h]

/-- A place of a `RoleMap` is the place of a role. -/
theorem Role.idx_surjective (i : Fin 15) : ∃ p : Role, p.idx = i := by
  have hall : ∀ i : Fin 15, ∃ p ∈ allRoles, p.idx = i := by decide
  obtain ⟨p, -, hp⟩ := hall i
  exact ⟨p, hp⟩

theorem ext {m m' : RoleMap α} (h : ∀ p : Role, m.get p = m'.get p) : m = m' := by
  apply Vector.ext
  intro i hi
  obtain ⟨p, hp⟩ := Role.idx_surjective ⟨i, hi⟩
  simpa [RoleMap.get, hp] using h p

theorem put_put (m : RoleMap α) (p : Role) (a b : α) : (m.put p a).put p b = m.put p b := by
  simp [RoleMap.put]

theorem put_comm (m : RoleMap α) {p q : Role} (h : p ≠ q) (a b : α) : (m.put p a).put q b = (m.put q b).put p a :=
  Vector.set_comm a b fun e => h (Role.idx_injective (Fin.ext e))

/-- The modes the init phase leaves: each role of the variant has its mode for life, the others none (R60, R61). -/
theorem get_initModes (v : Variant) (p : Role) : (initModes v).get p = if p ∈ v.roles then p.initMode else .unconfigured := by
  cases p with
  | btn i => revert i; cases v <;> decide
  | _ => cases v <;> decide

end Sys2Proof.Proofs.RoleMaps
end

section
/-! What pin events do to the trace, the environment's answers and the time (R16, R64, R70, R145): one relation, from which the
obligations on the trace and on time follow. -/
namespace Sys2Proof.Proofs.Timeline
open Sys2Proof Sys2Proof.Machine

/-- The event is a sample. -/
def isSample : Event → Bool
  | .smp _ _ => true
  | _ => false

/-- The world goes from `w` to `w'` by the stamped events `new`, each after the hold of the one before it. -/
structure Extends (w w' : World) (new : List Stamped) : Prop where
  trace : w'.trace = w.trace ++ new
  env : w'.env = w.env.drop (new.countP fun e => isSample e.ev)
  started : ∀ e ∈ new, w.now ≤ e.time
  kept : new.Pairwise fun a b => a.time + holdOf a.ev ≤ b.time
  ended : ∀ e ∈ new, e.time + holdOf e.ev ≤ w'.now
  lasts : w.now + (new.map fun e => holdOf e.ev).sum ≤ w'.now

theorem Extends.nil (w : World) : Extends w w [] where
  trace := by simp
  env := rfl
  started := nofun
  kept := .nil
  ended := nofun
  lasts := le_rfl

theorem Extends.now_le {w w' : World} {new : List Stamped} (h : Extends w w' new) : w.now ≤ w'.now :=
  le_trans (Nat.le_add_right _ _) h.lasts

theorem Extends.append {w₁ w₂ w₃ : World} {new₁ new₂ : List Stamped} (h₁ : Extends w₁ w₂ new₁) (h₂ : Extends w₂ w₃ new₂) :
    Extends w₁ w₃ (new₁ ++ new₂) where
  trace := by rw [h₂.trace, h₁.trace, List.append_assoc]
  env := by rw [h₂.env, h₁.env, List.drop_drop, List.countP_append]
  started e he := (List.mem_append.mp he).elim (h₁.started e) fun h => le_trans h₁.now_le (h₂.started e h)
  kept := List.pairwise_append.mpr
    ⟨h₁.kept, h₂.kept, fun a ha b hb => le_trans (h₁.ended a ha) (h₂.started b hb)⟩
  ended e he := (List.mem_append.mp he).elim (fun h => le_trans (h₁.ended e h) h₂.now_le) (h₂.ended e)
  lasts := by
    have := h₁.lasts
    have := h₂.lasts
    rw [List.map_append, List.sum_append]
    omega

/-- An event with no hold that is no sample. -/
theorem Extends.emit {e : Event} (hold : holdOf e = 0) (hsmp : isSample e = false) (w : World) :
    Extends w (w.emit e) [⟨w.nextTime, e⟩] where
  trace := rfl
  env := by simp [World.emit, hsmp]
  started := by simp [w.now_le_nextTime]
  kept := List.pairwise_singleton _ _
  ended := by simp [World.emit, hold]
  lasts := by simp [World.emit, hold, w.now_le_nextTime]

theorem Extends.sampled (p : Role) (l : Level) (w : World) : Extends w (w.sampled p l) [⟨w.nextTime, .smp p l⟩] where
  trace := rfl
  env := by simp [World.sampled, isSample]
  started := by simp [w.now_le_nextTime]
  kept := List.pairwise_singleton _ _
  ended := by simp [World.sampled, World.emit, holdOf]
  lasts := by simp [World.sampled, World.emit, holdOf, w.now_le_nextTime]

theorem Extends.delay {t : Nat} (ht : t ≠ 0) (w : World) : Extends w (w.delay t) [⟨w.nextTime, .dly t⟩] where
  trace := by simp [World.delay, ht, World.emit]
  env := by simp [World.delay, ht, World.emit, isSample]
  started := by simp [w.now_le_nextTime]
  kept := List.pairwise_singleton _ _
  ended := by simp [World.delay, ht, holdOf]
  lasts := by
    have := w.now_le_nextTime
    simp only [World.delay, if_neg ht, holdOf, List.map_cons, List.map_nil, List.sum_singleton]
    omega

/-- The world goes from `w` to `w'` by exactly these pin events. -/
def Records (w w' : World) (evs : List Event) : Prop := ∃ new, Extends w w' new ∧ new.map (·.ev) = evs

section
variable {w u w' : World} {evs es : List Event}

theorem Records.refl (w : World) : Records w w [] := ⟨[], .nil w, rfl⟩

theorem Records.append (h₁ : Records w u evs) (h₂ : Records u w' es) : Records w w' (evs ++ es) := by
  obtain ⟨new₁, x₁, rfl⟩ := h₁
  obtain ⟨new₂, x₂, rfl⟩ := h₂
  exact ⟨new₁ ++ new₂, x₁.append x₂, List.map_append⟩

theorem Records.emit (h : Records w u evs) {e : Event} (hold : holdOf e = 0) (hsmp : isSample e = false) :
    Records w (u.emit e) (evs ++ [e]) :=
  h.append ⟨_, .emit hold hsmp u, rfl⟩

theorem Records.drv (h : Records w u evs) (p : Role) (v : Level) : Records w (u.emit (.drv p v)) (evs ++ [.drv p v]) :=
  h.emit rfl rfl

theorem Records.sampled (h : Records w u evs) (p : Role) (l : Level) : Records w (u.sampled p l) (evs ++ [.smp p l]) :=
  h.append ⟨_, .sampled p l u, rfl⟩

theorem Records.delay (h : Records w u evs) (t : Nat) : Records w (u.delay t) (evs ++ holdEvents t) := by
  by_cases ht : t = 0
  · simpa [World.delay, holdEvents, ht] using h
  · exact h.append ⟨_, .delay ht u, by simp [holdEvents, ht]⟩

theorem Records.happened (h : Records w w' evs) : Happened w w' evs (evs.countP isSample) := by
  obtain ⟨new, x, rfl⟩ := h
  exact ⟨new, x.trace, rfl, by rw [x.env, List.countP_map]; rfl, x.now_le⟩

theorem Records.lasts (h : Records w w' evs) : w.now + (evs.map holdOf).sum ≤ w'.now := by
  obtain ⟨new, x, rfl⟩ := h
  simpa [List.map_map, Function.comp_def] using x.lasts

theorem Records.holdsKept (h : Records w w' evs) (hw : HoldsKept w) : HoldsKept w' := by
  obtain ⟨new, x, -⟩ := h
  obtain ⟨hpair, hend⟩ := hw
  unfold HoldsKept
  rw [x.trace]
  refine ⟨List.pairwise_append.mpr ⟨hpair, x.kept, fun a ha b hb => le_trans (hend a ha) (x.started b hb)⟩, fun a ha => ?_⟩
  rcases List.mem_append.mp ha with ha | ha
  · exact le_trans (hend a ha) x.now_le
  · exact x.ended a ha

end

/-- The environment's answers come in order: what is sampled after `n` samples is the answer at place `n` (R64, R74, R75). -/
theorem level_of_env {w : World} {u : State} {evs : List Event} {n : Nat} (h : Happened w u.world evs n) {p : Role} {a : Level}
    (ha : w.env[n]? = some (some a)) : levelAt p u = a := by
  obtain ⟨_, _, _, henv, _⟩ := h
  exact (levelAt_answers p u).1 a (by rw [henv, List.head?_drop, ha])

/-- An answer that drives nothing is `H` on a pulled-up line (R75). -/
theorem level_of_undriven {w : World} {u : State} {evs : List Event} {n : Nat} (h : Happened w u.world evs n) {p : Role}
    (hmode : u.mode.get p = .inpPullUp) (ha : w.env[n]? = some none) : levelAt p u = .H := by
  obtain ⟨_, _, _, henv, _⟩ := h
  exact (levelAt_answers p u).2 (by rw [henv, List.head?_drop, ha]) hmode

@[simp] theorem sum_holds_holdEvents (t : Nat) : ((holdEvents t).map holdOf).sum = t := by
  by_cases h : t = 0 <;> simp [holdEvents, holdOf, h]

@[simp] theorem countP_isSample_holdEvents (t : Nat) : (holdEvents t).countP isSample = 0 := by
  by_cases h : t = 0 <;> simp [holdEvents, isSample, h]

theorem holdEvents_of_pos {t : Nat} (h : 0 < t) : holdEvents t = [.dly t] := by simp [holdEvents, Nat.ne_of_gt h]

end Sys2Proof.Proofs.Timeline
end

section
/-! One step of the block, said once (R28, R122, R280): what each phase requires, the state it leaves, and the pin events it makes.
Every rule about steps is read off these. -/
namespace Sys2Proof.Proofs.Steps
open Sys2Proof Sys2Proof.Machine Sys2Proof.Proofs.Timeline

/-- An operation that goes on to `g` where `P` holds, and stops elsewhere. -/
theorem eq_next_iff {o : Out} {P : Prop} {g t : State} (hgo : P → o = .next g) (hok : o = .next t → P) :
    o = .next t ↔ P ∧ t = g :=
  ⟨fun h => ⟨hok h, Host.Outcome.next.inj (h.symm.trans (hgo (hok h)))⟩, fun ⟨hP, ht⟩ => ht ▸ hgo hP⟩

/-- An operation followed by another that always goes on. -/
theorem andThen_eq_next_iff {o : Out} {f : State → Out} {P : Prop} {u g t : State} (ho : ∀ v, o = .next v ↔ P ∧ v = u)
    (hf : f u = .next g) : andThen o f = .next t ↔ P ∧ t = g := by
  refine eq_next_iff (fun hP => ?_) fun ht => ?_
  · rw [(ho u).mpr ⟨hP, rfl⟩, andThen_next, hf]
  · obtain ⟨v, hv, -⟩ := andThen_eq_next.mp ht
    exact ((ho v).mp hv).1

/-! ### Acting on a line -/

/-- `DRV` may act on the role (R143). -/
abbrev CanDrive (p : Role) (s : State) : Prop := hasRole s p = true ∧ s.mode.get p = .out

/-- `SMP` may act on the role (R144). -/
abbrev CanRead (p : Role) (s : State) : Prop := hasRole s p = true ∧ canSample p s = true

theorem drive_eq_next {p : Role} {v : Level} {s t : State} :
    drive p v s = .next t ↔ CanDrive p s ∧ t = { s with outlvl := s.outlvl.put p (some v), world := s.world.emit (.drv p v) } :=
  drive_next.trans and_assoc.symm

theorem drive_of_canDrive {p : Role} {s : State} (h : CanDrive p s) (v : Level) :
    drive p v s = .next { s with outlvl := s.outlvl.put p (some v), world := s.world.emit (.drv p v) } :=
  drive_eq_next.mpr ⟨h, rfl⟩

theorem sample_eq_next {p : Role} {s t : State} {k : Level → State → Out} :
    sample p s k = .next t ↔ CanRead p s ∧ k (levelAt p s) { s with world := s.world.sampled p (levelAt p s) } = .next t :=
  sample_next.trans and_assoc.symm

theorem configureButtons_eq_next {ps : List Role} {s t : State} :
    configureButtons ps s = .next t ↔ (∀ p ∈ ps, hasRole s p = true) ∧
      t = { s with
        mode := ps.foldl (fun m p => m.put p .inpPullUp) s.mode
        world := ps.foldl (fun w p => w.emit (.cfgInPu p)) s.world } := by
  induction ps generalizing s with
  | nil => exact eq_next_iff (fun _ => rfl) fun _ => List.forall_mem_nil _
  | cons p ps ih =>
    simp only [configureButtons, andThen_eq_next, configure_next, List.forall_mem_cons, List.foldl_cons]
    constructor
    · rintro ⟨_, ⟨hp, rfl⟩, hps⟩
      obtain ⟨hroles, rfl⟩ := ih.mp hps
      exact ⟨⟨hp, hroles⟩, rfl⟩
    · rintro ⟨⟨hp, hroles⟩, rfl⟩
      exact ⟨_, ⟨hp, rfl⟩, ih.mpr ⟨hroles, rfl⟩⟩

theorem records_configureButtons (ps : List Role) (w : World) :
    Records w (ps.foldl (fun w p => w.emit (.cfgInPu p)) w) (ps.map .cfgInPu) := by
  induction ps generalizing w with
  | nil => exact .refl w
  | cons p ps ih => exact ((Records.refl w).emit rfl rfl).append (ih _)

/-! ### The four actions of a bit time (R205 to R208) -/

/-- `CMD` at bit `BITCNT` of `TX` (R205). -/
def sendBit (s : State) : State :=
  { s with
    outlvl := s.outlvl.put .cmd (some (lvl (s.tx.getLsbD s.bitcnt.toNat)))
    world := s.world.emit (.drv .cmd (lvl (s.tx.getLsbD s.bitcnt.toNat))) }

/-- `CLK` low and the open hold (R206). -/
def lowerClk (s : State) : State :=
  { s with
    outlvl := s.outlvl.put .clk (some .L)
    world := (s.world.emit (.drv .clk .L)).delay s.cfg.timing.tXclkLo }

/-- What `DAT` samples on the rising edge (R207). -/
def edgeLevel (s : State) : Level := levelAt .dat { s with world := s.world.emit (.drv .clk .H) }

/-- `CLK` high and the sample on this edge (R207). -/
def raiseClk (s : State) : State :=
  { s with
    outlvl := s.outlvl.put .clk (some .H)
    rx := setOnLow (edgeLevel s) s.rx s.bitcnt.toNat
    world := (s.world.emit (.drv .clk .H)).sampled .dat (edgeLevel s) }

/-- The hold after the bit, and the count (R208). -/
def holdBit (s : State) : State :=
  { s with bitcnt := s.bitcnt + 1#4, world := s.world.delay s.cfg.timing.tBit }

theorem bitCmd_eq_next {s t : State} : bitCmd s = .next t ↔ (s.bitcnt.toNat < 8 ∧ CanDrive .cmd s) ∧ t = sendBit s := by
  unfold bitCmd
  split_ifs with h
  · rw [drive_eq_next, and_iff_right h]
    rfl
  · simp [h]

theorem bitClkLo_eq_next {s t : State} : bitClkLo s = .next t ↔ CanDrive .clk s ∧ t = lowerClk s :=
  andThen_eq_next_iff (fun _ => drive_eq_next) rfl

theorem bitClkHi_eq_next {s t : State} :
    bitClkHi s = .next t ↔ (s.bitcnt.toNat < 8 ∧ CanDrive .clk s ∧ CanRead .dat s) ∧ t = raiseClk s := by
  unfold bitClkHi
  split_ifs with h
  · simp only [andThen_eq_next, drive_eq_next, sample_eq_next]
    constructor
    · rintro ⟨_, ⟨hclk, rfl⟩, hdat, ht⟩
      cases ht
      exact ⟨⟨h, hclk, hdat⟩, rfl⟩
    · rintro ⟨⟨-, hclk, hdat⟩, rfl⟩
      exact ⟨_, ⟨hclk, rfl⟩, hdat, rfl⟩
  · simp [h]

theorem bitHold_eq (s : State) : bitHold s = .next (holdBit s) := rfl

/-! ### The phases -/

/-- The line G_SMP samples, `BTN<BITCNT>` (R62). -/
def buttonOf (k : BitVec 4) : Role := .btn (Fin.ofNat 8 k.toNat)

theorem buttonAt_eq (k : BitVec 4) : buttonAt k = if k.toNat < 8 then some (buttonOf k) else none := by
  unfold buttonAt buttonOf
  split_ifs with h
  · exact congrArg (fun i => some (Role.btn i)) (Fin.ext (Nat.mod_eq_of_lt h).symm)
  · rfl

/-- What a phase requires of the state: roles of the variant, their modes, counters in range. -/
def PhaseOk : Phase → State → Prop
  | .gInit, s => ∀ p ∈ Variant.gpio.roles, hasRole s p = true
  | .gSmp, s => s.bitcnt.toNat < 8 ∧ CanRead (buttonOf s.bitcnt) s
  | .sInit, s => ∀ p ∈ [Role.latch, .clock, .data], hasRole s p = true
  | .sLatchHi, s | .sLatchLo, s => CanDrive .latch s
  | .sSample, s => s.bitcnt.toNat < 12 ∧ CanRead .data s
  | .sClkLo, s | .sClkHi, s => CanDrive .clock s
  | .pInit, s => ∀ p ∈ [Role.att, .clk, .cmd, .dat], hasRole s p = true
  | .pAttLo, s | .pAttHi, s => CanDrive .att s
  | .pLoad, s => s.prime = true ∨ s.bytecnt.toNat < 5
  | .xCmd, s => s.bitcnt.toNat < 8 ∧ CanDrive .cmd s
  | .xClkLo, s => CanDrive .clk s
  | .xClkHi, s => s.bitcnt.toNat < 8 ∧ CanDrive .clk s ∧ CanRead .dat s
  | .pStore, s => s.bytecnt.toNat < 5
  | _, _ => True

/-- The state DISPATCH leaves: the two errors in order, the init phase, or the first poll phase (R124). -/
def dispatchNext (s : State) : State :=
  if s.op = .init then
    if variantOf s = .unselected then { s with fault := .noVariant, phase := .halt }
    else if pinmapValid s.cfg = false then { s with fault := .badPinmap, phase := .halt }
    else { s with phase := initPhase (variantOf s) }
  else { s with phase := pollPhase (variantOf s) }

/-- The state P_ATT_HI leaves: another priming frame, the end of the priming, or the remap (R210). -/
def attHiNext (s : State) : State :=
  let t := { s with outlvl := s.outlvl.put .att (some .H), world := s.world.emit (.drv .att .H) }
  if s.prime then
    if (s.framecnt + 1#2).toNat < nPrime then { t with framecnt := s.framecnt + 1#2, phase := .pSettle }
    else { t with framecnt := s.framecnt + 1#2, prime := false, phase := .respond }
  else { t with phase := .pRemap }

/-- The state a phase leaves where it stops at nothing; in IDLE that of waiting. -/
def phaseNext : Phase → State → State
  | .idle, s => { s with phase := .idle }
  | .dispatch, s => dispatchNext s
  | .respond, s => { s with
      inited := if s.op = .init then true else s.inited
      bool := if s.op = .ispressed then anyPressed s.mask s.arg else s.bool
      rspValid := true
      phase := .idle }
  | .halt, s => { s with rspValid := false, phase := .halt }
  | .gInit, s => { s with
      mode := Variant.gpio.roles.foldl (fun m p => m.put p .inpPullUp) s.mode
      world := Variant.gpio.roles.foldl (fun w p => w.emit (.cfgInPu p)) s.world
      phase := .respond }
  | .gClear, s => { s with scr := 0#12, bitcnt := 0#4, phase := .gSmp }
  | .gSmp, s => { s with
      scr := setOnLow (levelAt (buttonOf s.bitcnt) s) s.scr s.bitcnt.toNat
      bitcnt := s.bitcnt + 1#4
      world := s.world.sampled (buttonOf s.bitcnt) (levelAt (buttonOf s.bitcnt) s)
      phase := if (s.bitcnt + 1#4).toNat < 8 then .gSmp else .gDone }
  | .gDone, s => { s with mask := remapGpioFn s.scr, phase := .respond }
  | .sInit, s => { s with
      mode := ((s.mode.put .latch .out).put .clock .out).put .data .inp
      outlvl := (s.outlvl.put .latch (some .L)).put .clock (some .H)
      world := ((((s.world.emit (.cfgOut .latch)).emit (.cfgOut .clock)).emit (.cfgIn .data)).emit (.drv .latch .L)).emit
        (.drv .clock .H)
      phase := .respond }
  | .sLatchHi, s => { s with
      scr := 0#12
      bitcnt := 0#4
      outlvl := s.outlvl.put .latch (some .H)
      world := (s.world.emit (.drv .latch .H)).delay s.cfg.timing.tLatch
      phase := .sLatchLo }
  | .sLatchLo, s => { s with
      outlvl := s.outlvl.put .latch (some .L)
      world := (s.world.emit (.drv .latch .L)).delay s.cfg.timing.tSettle
      phase := .sSample }
  | .sSample, s => { s with
      scr := setOnLow (levelAt .data s) s.scr s.bitcnt.toNat
      world := s.world.sampled .data (levelAt .data s)
      phase := .sClkLo }
  | .sClkLo, s => { s with
      outlvl := s.outlvl.put .clock (some .L)
      world := (s.world.emit (.drv .clock .L)).delay s.cfg.timing.tClkLo
      phase := .sClkHi }
  | .sClkHi, s => { s with
      outlvl := s.outlvl.put .clock (some .H)
      world := (s.world.emit (.drv .clock .H)).delay s.cfg.timing.tClkHi
      bitcnt := s.bitcnt + 1#4
      phase := if (s.bitcnt + 1#4).toNat < frameBits s then .sSample else .sRemap }
  | .sRemap, s => { s with
      mask := if variantOf s = .nes then remapNesFn s.scr else remapSnesFn s.scr
      phase := .respond }
  | .pInit, s => { s with
      mode := (((s.mode.put .att .out).put .clk .out).put .cmd .out).put .dat .inp
      outlvl := ((s.outlvl.put .att (some .H)).put .clk (some .H)).put .cmd (some .H)
      world := ((((((s.world.emit (.cfgOut .att)).emit (.cfgOut .clk)).emit (.cfgOut .cmd)).emit (.cfgIn .dat)).emit
        (.drv .att .H)).emit (.drv .clk .H)).emit (.drv .cmd .H)
      prime := true
      framecnt := 0#2
      phase := .pSettle }
  | .pSettle, s => { s with world := s.world.delay s.cfg.timing.tAtt, phase := .pAttLo }
  | .pAttLo, s => { s with
      outlvl := s.outlvl.put .att (some .L)
      world := s.world.emit (.drv .att .L)
      bytecnt := 0#3
      phase := .pLoad }
  | .pLoad, s => { loadByte ((txByte s).getD 0#8) s with phase := .xCmd }
  | .xCmd, s => { sendBit s with phase := .xClkLo }
  | .xClkLo, s => { lowerClk s with phase := .xClkHi }
  | .xClkHi, s => { raiseClk s with phase := .xHold }
  | .xHold, s => { holdBit s with phase := if (s.bitcnt + 1#4).toNat < 8 then .xCmd else .pStore }
  | .pStore, s => { s with
      rxbuf := s.rxbuf.setIfInBounds s.bytecnt.toNat s.rx
      bytecnt := s.bytecnt + 1#3
      phase := if (s.bytecnt + 1#3).toNat < frameBytes s.prime then .pLoad else .pAttHi }
  | .pAttHi, s => attHiNext s
  | .pRemap, s => { s with
      field := fieldOf s.rxbuf
      mask := remapPsxFn (fieldOf s.rxbuf)
      phase := .respond }

theorem execDispatch_eq (s : State) : execDispatch s = .next (dispatchNext s) := by
  unfold execDispatch dispatchNext
  split
  · rename_i hop
    rw [if_pos hop]
    by_cases hv : variantOf s = .unselected
    · rw [if_pos hv, if_pos hv]
      rfl
    · cases hp : pinmapValid s.cfg <;> simp [hv]
  · rename_i hop
    rw [if_neg (by simp [hop])]
    rfl
  · rename_i hop
    rw [if_neg (by simp [hop])]
    rfl

theorem execGSmp_eq_next {s t : State} : execGSmp s = .next t ↔ PhaseOk .gSmp s ∧ t = phaseNext .gSmp s := by
  unfold execGSmp
  rw [buttonAt_eq]
  by_cases h : s.bitcnt.toNat < 8
  · rw [if_pos h]
    exact eq_next_iff (fun hok => sample_eq_next.mpr ⟨hok.2, rfl⟩) fun ht => ⟨h, (sample_eq_next.mp ht).1⟩
  · simp [h, PhaseOk]

theorem execSSample_eq_next {s t : State} : execSSample s = .next t ↔ PhaseOk .sSample s ∧ t = phaseNext .sSample s := by
  unfold execSSample
  by_cases h : s.bitcnt.toNat < 12
  · rw [if_pos h]
    exact eq_next_iff (fun hok => sample_eq_next.mpr ⟨hok.2, rfl⟩) fun ht => ⟨h, (sample_eq_next.mp ht).1⟩
  · simp [h, PhaseOk]

/-- The state after `CFG_OUT`, `CFG_IN` or `CFG_IN_PU` (R140 to R142). -/
def withMode (p : Role) (m : Mode) (e : Event) (s : State) : State := emit e { s with mode := s.mode.put p m }

/-- The state after `DRV(p, v)` (R143). -/
def driven (p : Role) (v : Level) (s : State) : State := emit (.drv p v) { s with outlvl := s.outlvl.put p (some v) }

section
variable {s : State} {p q : Role} {m : Mode} {e : Event} {v : Level}

@[simp] theorem hasRole_withMode : hasRole (withMode p m e s) q = hasRole s q := rfl
@[simp] theorem hasRole_driven : hasRole (driven p v s) q = hasRole s q := rfl
@[simp] theorem withMode_mode : (withMode p m e s).mode = s.mode.put p m := rfl
@[simp] theorem driven_mode : (driven p v s).mode = s.mode := rfl

theorem configure_of_hasRole (h : hasRole s p = true) : configure p m e s = .next (withMode p m e s) :=
  configure_next.mpr ⟨h, rfl⟩

theorem drive_of_hasRole (h : hasRole s p = true) (hm : s.mode.get p = .out) : drive p v s = .next (driven p v s) :=
  drive_next.mpr ⟨h, hm, rfl⟩

end

theorem execSInit_eq_next {s t : State} : execSInit s = .next t ↔ PhaseOk .sInit s ∧ t = phaseNext .sInit s := by
  refine eq_next_iff (fun hok => ?_) fun ht => ?_
  · simp only [PhaseOk, List.forall_mem_cons] at hok
    obtain ⟨hlatch, hclock, hdata, -⟩ := hok
    simp [execSInit, configure_of_hasRole, drive_of_hasRole, hlatch, hclock, hdata]
    simp only [withMode, driven, emit, phaseNext]
  · simp only [execSInit, andThen_eq_next, configure_next] at ht
    obtain ⟨_, ⟨hlatch, rfl⟩, _, ⟨hclock, rfl⟩, _, ⟨hdata, rfl⟩, -⟩ := ht
    exact List.forall_mem_cons.mpr ⟨hlatch, List.forall_mem_cons.mpr ⟨hclock, List.forall_mem_singleton.mpr hdata⟩⟩

theorem execPInit_eq_next {s t : State} : execPInit s = .next t ↔ PhaseOk .pInit s ∧ t = phaseNext .pInit s := by
  refine eq_next_iff (fun hok => ?_) fun ht => ?_
  · simp only [PhaseOk, List.forall_mem_cons] at hok
    obtain ⟨hatt, hclk, hcmd, hdat, -⟩ := hok
    simp [execPInit, configure_of_hasRole, drive_of_hasRole, hatt, hclk, hcmd, hdat]
    simp only [withMode, driven, emit, phaseNext]
  · simp only [execPInit, andThen_eq_next, configure_next] at ht
    obtain ⟨_, ⟨hatt, rfl⟩, _, ⟨hclk, rfl⟩, _, ⟨hcmd, rfl⟩, _, ⟨hdat, rfl⟩, -⟩ := ht
    exact List.forall_mem_cons.mpr ⟨hatt, List.forall_mem_cons.mpr ⟨hclk, List.forall_mem_cons.mpr ⟨hcmd,
      List.forall_mem_singleton.mpr hdat⟩⟩⟩

theorem txByte_eq_some_iff (s : State) : (∃ b, txByte s = some b) ↔ s.prime = true ∨ s.bytecnt.toNat < 5 := by
  unfold txByte
  cases s.prime
  · simp [hdr, ← Option.isSome_iff_exists]
  · simp

theorem execPLoad_eq_next {s t : State} : execPLoad s = .next t ↔ PhaseOk .pLoad s ∧ t = phaseNext .pLoad s := by
  simp only [PhaseOk, ← txByte_eq_some_iff, execPLoad, phaseNext]
  cases txByte s <;> simp [eq_comm]

theorem execPStore_eq_next {s t : State} : execPStore s = .next t ↔ PhaseOk .pStore s ∧ t = phaseNext .pStore s := by
  unfold execPStore
  by_cases h : s.bytecnt.toNat < 5
  · have hset : s.rxbuf.setIfInBounds s.bytecnt.toNat s.rx = s.rxbuf.set s.bytecnt.toNat s.rx h := by
      ext i hi
      simp [Vector.getElem_setIfInBounds, Vector.getElem_set]
    rw [dif_pos h]
    exact eq_next_iff (fun _ => by rw [phaseNext, hset]; rfl) fun _ => h
  · simp [h, PhaseOk]

theorem execPAttHi_eq_next {s t : State} : execPAttHi s = .next t ↔ PhaseOk .pAttHi s ∧ t = phaseNext .pAttHi s := by
  refine andThen_eq_next_iff (fun _ => drive_eq_next) ?_
  simp only [phaseNext, attHiNext, goto_next]
  split_ifs <;> rfl

/-- A phase goes on exactly where its requirements hold, and leaves the state `phaseNext` says; in IDLE no command is seen. -/
theorem exec_phase_eq_next {q : Phase} {s t : State} (hidle : q = .idle → commandSeen s = false) :
    exec (phaseInstr q) s = .next t ↔ PhaseOk q s ∧ t = phaseNext q s := by
  cases q
  case idle =>
    have hwait : exec .idle s = .next { s with phase := .idle } := if_neg (by simpa [commandSeen] using hidle rfl)
    simp [phaseInstr, hwait, PhaseOk, phaseNext, eq_comm]
  case dispatch =>
    have hgo : exec .dispatch s = .next (dispatchNext s) := execDispatch_eq s
    simp [phaseInstr, hgo, PhaseOk, phaseNext, eq_comm]
  case gInit => exact andThen_eq_next_iff (fun _ => configureButtons_eq_next) rfl
  case gSmp => exact execGSmp_eq_next
  case sInit => exact execSInit_eq_next
  case sLatchHi => exact andThen_eq_next_iff (fun _ => drive_eq_next) rfl
  case sLatchLo => exact andThen_eq_next_iff (fun _ => drive_eq_next) rfl
  case sSample => exact execSSample_eq_next
  case sClkLo => exact andThen_eq_next_iff (fun _ => drive_eq_next) rfl
  case sClkHi => exact andThen_eq_next_iff (fun _ => drive_eq_next) rfl
  case pInit => exact execPInit_eq_next
  case pAttLo => exact andThen_eq_next_iff (fun _ => drive_eq_next) rfl
  case pLoad => exact execPLoad_eq_next
  case xCmd => exact andThen_eq_next_iff (fun _ => bitCmd_eq_next) rfl
  case xClkLo => exact andThen_eq_next_iff (fun _ => bitClkLo_eq_next) rfl
  case xClkHi => exact andThen_eq_next_iff (fun _ => bitClkHi_eq_next) rfl
  case pStore => exact execPStore_eq_next
  case pAttHi => exact execPAttHi_eq_next
  all_goals exact ⟨fun h => ⟨trivial, (Host.Outcome.next.inj h).symm⟩, fun h => congrArg Host.Outcome.next h.2.symm⟩

/-! ### The pin events of a phase -/

/-- The pin events a phase makes, in order. -/
def phaseEvents : Phase → State → List Event
  | .gInit, _ => Variant.gpio.roles.map .cfgInPu
  | .gSmp, s => [.smp (buttonOf s.bitcnt) (levelAt (buttonOf s.bitcnt) s)]
  | .sInit, _ => [.cfgOut .latch, .cfgOut .clock, .cfgIn .data, .drv .latch .L, .drv .clock .H]
  | .sLatchHi, s => .drv .latch .H :: holdEvents s.cfg.timing.tLatch
  | .sLatchLo, s => .drv .latch .L :: holdEvents s.cfg.timing.tSettle
  | .sSample, s => [.smp .data (levelAt .data s)]
  | .sClkLo, s => .drv .clock .L :: holdEvents s.cfg.timing.tClkLo
  | .sClkHi, s => .drv .clock .H :: holdEvents s.cfg.timing.tClkHi
  | .pInit, _ => [.cfgOut .att, .cfgOut .clk, .cfgOut .cmd, .cfgIn .dat, .drv .att .H, .drv .clk .H, .drv .cmd .H]
  | .pSettle, s => holdEvents s.cfg.timing.tAtt
  | .pAttLo, _ => [.drv .att .L]
  | .xCmd, s => [.drv .cmd (lvl (s.tx.getLsbD s.bitcnt.toNat))]
  | .xClkLo, s => .drv .clk .L :: holdEvents s.cfg.timing.tXclkLo
  | .xClkHi, s => [.drv .clk .H, .smp .dat (edgeLevel s)]
  | .xHold, s => holdEvents s.cfg.timing.tBit
  | .pAttHi, _ => [.drv .att .H]
  | _, _ => []

theorem records_drive_delay (w : World) (p : Role) (v : Level) (t : Nat) :
    Records w ((w.emit (.drv p v)).delay t) (.drv p v :: holdEvents t) :=
  ((Records.refl w).drv p v).delay t

theorem records_phaseNext (q : Phase) (s : State) : Records s.world (phaseNext q s).world (phaseEvents q s) := by
  cases q
  case dispatch =>
    have hworld : (dispatchNext s).world = s.world := by
      unfold dispatchNext
      split_ifs <;> rfl
    simp only [phaseNext, phaseEvents, hworld]
    exact .refl s.world
  case pAttHi =>
    have hworld : (attHiNext s).world = s.world.emit (.drv .att .H) := by
      unfold attHiNext
      split_ifs <;> rfl
    simp only [phaseNext, phaseEvents, hworld]
    exact (Records.refl s.world).drv _ _
  case gInit => exact records_configureButtons _ _
  case gSmp | sSample => exact (Records.refl s.world).sampled _ _
  case sLatchHi | sLatchLo | sClkLo | sClkHi | xClkLo => exact records_drive_delay s.world _ _ _
  case sInit =>
    exact (((((Records.refl s.world).emit rfl rfl).emit rfl rfl).emit rfl rfl).drv _ _).drv _ _
  case pInit =>
    exact (((((((Records.refl s.world).emit rfl rfl).emit rfl rfl).emit rfl rfl).emit rfl rfl).drv _ _).drv _ _).drv _ _
  case pSettle | xHold => exact (Records.refl s.world).delay _
  case pAttLo | xCmd => exact (Records.refl s.world).drv _ _
  case xClkHi => exact ((Records.refl s.world).drv _ _).sampled _ _
  all_goals exact .refl s.world

/-! ### A step -/

theorem commandSeen_of_busy {s : State} (h : s.phase ≠ .idle) : commandSeen s = false := by
  simp [commandSeen, cmdReady, h]

theorem phase_of_commandSeen {s : State} (h : commandSeen s = true) : s.phase = .idle := by
  by_contra hne
  rw [commandSeen_of_busy hne] at h
  cases h

/-- The state after the command `o` with the argument `a` is accepted (R122). -/
def accepted (o : HostOp) (a : Byte) (s : State) : State :=
  { s with op := o, arg := a, phase := .dispatch, port := { s.port with cmdValid := false } }

/-- The command operation that the port presents is acceptance of that command, or a refusal of the reserved one. -/
theorem exec_cmdInstr (o : BitVec 2) (a : Byte) (s : State) :
    exec (cmdInstr o a) s =
      match HostOp.ofCode o with
      | some op => acceptCommand op a s
      | none => if cmdReady s then .refused .reservedCommand else .refused .portNotReady := by
  have hcode : o = 0#2 ∨ o = 1#2 ∨ o = 2#2 ∨ o = 3#2 := by revert o; decide
  rcases hcode with rfl | rfl | rfl | rfl <;> rfl

/-- What a step can do: reset, accept the command at the port, or run the phase. -/
theorem step_cases {s t : State} (h : step s = .next t) :
    (s.port.rst = true ∧ t = applyReset s) ∨
    (s.port.rst = false ∧ commandSeen s = true ∧
      ∃ o, acceptable o s = true ∧ t = accepted o s.port.cmdArg (dropResponse s)) ∨
    (s.port.rst = false ∧ commandSeen s = false ∧ PhaseOk s.phase (dropResponse s) ∧ t = phaseNext s.phase (dropResponse s)) := by
  unfold step fetch at h
  split_ifs at h with hrst hseen
  · exact .inl ⟨hrst, (Host.Outcome.next.inj h).symm⟩
  · refine .inr (.inl ⟨by simpa using hrst, hseen, ?_⟩)
    rw [exec_cmdInstr] at h
    split at h
    · obtain ⟨-, hacc, rfl⟩ := acceptCommand_next.mp h
      exact ⟨_, hacc, rfl⟩
    · split_ifs at h
  · have hquiet : commandSeen s = false := by simpa using hseen
    exact .inr (.inr ⟨by simpa using hrst, hquiet, (exec_phase_eq_next (s := dropResponse s) fun _ => hquiet).mp h⟩)

/-- A step outside reset with no command at the port runs the phase. -/
theorem step_of_phaseOk {s : State} (hrst : s.port.rst = false) (hquiet : commandSeen s = false)
    (hok : PhaseOk s.phase (dropResponse s)) : step s = .next (phaseNext s.phase (dropResponse s)) := by
  have hfetch : fetch s = phaseInstr s.phase := by simp [fetch, hquiet]
  have hrun : step s = exec (phaseInstr s.phase) (dropResponse s) := by simp [step, hrst, hfetch]
  rw [hrun]
  exact (exec_phase_eq_next (s := dropResponse s) fun _ => hquiet).mpr ⟨hok, rfl⟩

end Sys2Proof.Proofs.Steps
end

section
/-! What no step changes, and what only some phases change (R33, R34, R42, R64, R70, R145, R253, R293). -/
namespace Sys2Proof.Proofs.StepRules
open Sys2Proof Sys2Proof.Machine Sys2Proof.Proofs.Timeline Sys2Proof.Proofs.Steps Sys2Proof.Proofs.RoleMaps

/-! ### The frame of a phase -/

theorem phaseNext_frame (q : Phase) (s : State) :
    (phaseNext q s).cfg = s.cfg ∧ (phaseNext q s).released = s.released ∧ (phaseNext q s).port = s.port ∧
      (phaseNext q s).op = s.op ∧ (phaseNext q s).arg = s.arg := by
  cases q
  case dispatch =>
    simp only [phaseNext, dispatchNext]
    split_ifs <;> simp
  case pAttHi =>
    simp only [phaseNext, attHiNext]
    split_ifs <;> simp
  all_goals exact ⟨rfl, rfl, rfl, rfl, rfl⟩

@[simp] theorem phaseNext_cfg (q : Phase) (s : State) : (phaseNext q s).cfg = s.cfg := (phaseNext_frame q s).1
@[simp] theorem phaseNext_released (q : Phase) (s : State) : (phaseNext q s).released = s.released := (phaseNext_frame q s).2.1
@[simp] theorem phaseNext_port (q : Phase) (s : State) : (phaseNext q s).port = s.port := (phaseNext_frame q s).2.2.1
@[simp] theorem phaseNext_op (q : Phase) (s : State) : (phaseNext q s).op = s.op := (phaseNext_frame q s).2.2.2.1
@[simp] theorem phaseNext_arg (q : Phase) (s : State) : (phaseNext q s).arg = s.arg := (phaseNext_frame q s).2.2.2.2

/-- `INITED` is written by RESPOND of an INIT alone (R33). -/
theorem phaseNext_inited (q : Phase) (s : State) :
    (phaseNext q s).inited = (s.inited || decide (q = .respond ∧ s.op = .init)) := by
  cases q
  case dispatch =>
    simp only [phaseNext, dispatchNext]
    split_ifs <;> simp
  case pAttHi =>
    simp only [phaseNext, attHiNext]
    split_ifs <;> simp
  case respond => by_cases h : s.op = .init <;> simp [phaseNext, h]
  all_goals simp [phaseNext, loadByte, sendBit, lowerClk, raiseClk, holdBit]

/-- `FAULT` is written by DISPATCH of an INIT alone (R34). -/
theorem phaseNext_fault {q : Phase} {s : State} (h : q = .dispatch → s.op ≠ .init) : (phaseNext q s).fault = s.fault := by
  cases q
  case dispatch => simp [phaseNext, dispatchNext, h rfl]
  case pAttHi =>
    simp only [phaseNext, attHiNext]
    split_ifs <;> rfl
  all_goals rfl

/-- No phase but an init phase changes a mode (R42, R147). -/
theorem phaseNext_mode {q : Phase} {s : State} (h : q.isInit = false) : (phaseNext q s).mode = s.mode := by
  cases q
  case gInit | sInit | pInit => cases h
  case dispatch =>
    simp only [phaseNext, dispatchNext]
    split_ifs <;> rfl
  case pAttHi =>
    simp only [phaseNext, attHiNext]
    split_ifs <;> rfl
  all_goals rfl

/-- `MASK` is written by the phases that end a poll alone (R25). -/
theorem phaseNext_mask {q : Phase} {s : State} (hg : q ≠ .gDone) (hs : q ≠ .sRemap) (hp : q ≠ .pRemap) :
    (phaseNext q s).mask = s.mask := by
  cases q
  case gDone | sRemap | pRemap => contradiction
  case dispatch =>
    simp only [phaseNext, dispatchNext]
    split_ifs <;> rfl
  case pAttHi =>
    simp only [phaseNext, attHiNext]
    split_ifs <;> rfl
  all_goals rfl

/-- `FIELD` is written by P_REMAP alone (R211). -/
theorem phaseNext_field {q : Phase} {s : State} (hp : q ≠ .pRemap) : (phaseNext q s).field = s.field := by
  cases q
  case pRemap => contradiction
  case dispatch =>
    simp only [phaseNext, dispatchNext]
    split_ifs <;> rfl
  case pAttHi =>
    simp only [phaseNext, attHiNext]
    split_ifs <;> rfl
  all_goals rfl

/-- A response is presented by RESPOND alone (R125). -/
theorem phaseNext_rspValid {q : Phase} {s : State} (h : s.rspValid = false) : (phaseNext q s).rspValid = decide (q = .respond) := by
  cases q
  case dispatch =>
    simp only [phaseNext, dispatchNext]
    split_ifs <;> simp [h]
  case pAttHi =>
    simp only [phaseNext, attHiNext]
    split_ifs <;> simp [h]
  all_goals simp [phaseNext, loadByte, sendBit, lowerClk, raiseClk, holdBit, h]

theorem get_foldl_put_of_notMem {α : Type} (a : α) (ps : List Role) (m : RoleMap α) {p : Role} (h : p ∉ ps) :
    (ps.foldl (fun m q => m.put q a) m : RoleMap α).get p = m.get p := by
  induction ps generalizing m with
  | nil => rfl
  | cons q ps ih =>
    simp only [List.mem_cons, not_or] at h
    obtain ⟨hq, hps⟩ := h
    rw [List.foldl_cons, ih _ hps, get_put, if_neg (Ne.symm hq)]

/-- No phase changes the mode of a role the variant does not have (R60). -/
theorem phaseNext_mode_of_not_hasRole {q : Phase} {s : State} (hok : PhaseOk q s) {p : Role} (hp : hasRole s p = false) :
    (phaseNext q s).mode.get p = s.mode.get p := by
  have hne : ∀ r, hasRole s r = true → r ≠ p := by
    rintro r hr rfl
    rw [hp] at hr
    cases hr
  by_cases hinit : q.isInit = false
  · rw [phaseNext_mode hinit]
  · cases q
    case gInit => exact get_foldl_put_of_notMem _ _ _ fun hmem => hne p (hok p hmem) rfl
    case sInit =>
      simp only [PhaseOk, List.forall_mem_cons] at hok
      obtain ⟨hlatch, hclock, hdata, -⟩ := hok
      simp [phaseNext, hne _ hlatch, hne _ hclock, hne _ hdata]
    case pInit =>
      simp only [PhaseOk, List.forall_mem_cons] at hok
      obtain ⟨hatt, hclk, hcmd, hdat, -⟩ := hok
      simp [phaseNext, hne _ hatt, hne _ hclk, hne _ hcmd, hne _ hdat]
    all_goals exact absurd rfl hinit

/-! ### Steps -/

theorem step_records {s t : State} (h : step s = .next t) : ∃ evs, Records s.world t.world evs := by
  obtain ⟨-, rfl⟩ | ⟨-, -, o, -, rfl⟩ | ⟨-, -, -, rfl⟩ := step_cases h
  · exact ⟨[], .refl _⟩
  · exact ⟨[], .refl _⟩
  · exact ⟨_, records_phaseNext s.phase (dropResponse s)⟩

/-- Settles O9: what a step records begins after every earlier hold and keeps its own. -/
theorem stepsKeepEveryHold : Obligations.StepsKeepEveryHold := by
  unfold Obligations.StepsKeepEveryHold
  intro s t hs h
  obtain ⟨evs, hrec⟩ := step_records h
  exact hrec.holdsKept hs

/-- Settles O8. -/
theorem stepsOnlyAppendToTheTrace : Obligations.StepsOnlyAppendToTheTrace := by
  unfold Obligations.StepsOnlyAppendToTheTrace
  intro s t h
  obtain ⟨evs, new, hext, -⟩ := step_records h
  have hsmp : (fun e : Stamped => isSample e.ev) = fun e => match e.ev with | .smp _ _ => true | _ => false := by
    funext e
    cases e.ev <;> rfl
  exact ⟨new, hext.trace, hext.started, hext.now_le, hsmp ▸ hext.env⟩

theorem execIdle_next {s t : State} (h : execIdle s = .next t) :
    t = { s with phase := .idle } ∨ ∃ o, acceptable o s = true ∧ t = accepted o s.port.cmdArg s := by
  unfold execIdle at h
  split_ifs at h
  · split at h
    · obtain ⟨-, hacc, rfl⟩ := acceptCommand_next.mp h
      exact .inr ⟨_, hacc, rfl⟩
    · cases h
  · exact .inl (Host.Outcome.next.inj h).symm

theorem minTime_le_holds (q : Phase) (s : State) : minTime s.cfg.timing q ≤ ((phaseEvents q s).map holdOf).sum := by
  cases q <;> simp [minTime, phaseEvents, holdOf]

/-- Settles O10: the minimum time of a phase is among the holds it records; IDLE has none. -/
theorem phasesTakeTheirMinimumTimes : Obligations.PhasesTakeTheirMinimumTimes := by
  unfold Obligations.PhasesTakeTheirMinimumTimes
  constructor
  · intro q s t h
    by_cases hq : q = .idle
    · subst hq
      obtain rfl | ⟨o, -, rfl⟩ := execIdle_next h <;> exact le_rfl
    · obtain ⟨-, rfl⟩ := (exec_phase_eq_next fun h => absurd h hq).mp h
      exact le_trans (Nat.add_le_add_left (minTime_le_holds q s) _) (records_phaseNext q s).lasts
  · exact fun c hc => hc

/-- Settles O11. -/
theorem onlyInitPhasesChangeModes : Obligations.OnlyInitPhasesChangeModes := by
  unfold Obligations.OnlyInitPhasesChangeModes
  intro s t hrst h
  obtain ⟨hreset, -⟩ | ⟨-, -, o, -, rfl⟩ | ⟨-, -, hok, rfl⟩ := step_cases h
  · simp [hrst] at hreset
  · exact ⟨.inl rfl, fun _ _ => rfl⟩
  · refine ⟨?_, fun p hp => phaseNext_mode_of_not_hasRole hok hp⟩
    cases hinit : s.phase.isInit
    · exact .inl (phaseNext_mode hinit)
    · exact .inr rfl

/-- Settles O12. -/
theorem statusBitsHaveOneWriter : Obligations.StatusBitsHaveOneWriter := by
  unfold Obligations.StatusBitsHaveOneWriter
  intro s t hrst h
  obtain ⟨hreset, -⟩ | ⟨-, -, o, -, rfl⟩ | ⟨-, -, -, rfl⟩ := step_cases h
  · simp [hrst] at hreset
  · exact ⟨fun hne => absurd rfl hne, fun hne => absurd rfl hne⟩
  · refine ⟨fun hne => ?_, fun hne => ?_⟩
    · rw [phaseNext_inited] at hne ⊢
      by_cases hresp : s.phase = .respond ∧ s.op = .init
      · exact ⟨by simp [hresp], hresp⟩
      · simp [hresp] at hne
    · by_contra hdisp
      exact hne (phaseNext_fault fun hq hop => hdisp ⟨hq, hop⟩)

/-- Settles O13. -/
theorem maskAndResponseWriters : Obligations.MaskAndResponseWriters := by
  unfold Obligations.MaskAndResponseWriters
  intro s t hrst h
  obtain ⟨hreset, -⟩ | ⟨-, hseen, o, -, rfl⟩ | ⟨-, -, -, rfl⟩ := step_cases h
  · simp [hrst] at hreset
  · have hidle := phase_of_commandSeen hseen
    exact ⟨fun hne => absurd rfl hne, by simp [accepted, hidle]⟩
  · refine ⟨fun hne => ?_, by rw [phaseNext_rspValid rfl, decide_eq_true_eq]⟩
    by_contra hphase
    obtain ⟨hg, hs, hp⟩ := not_or.mp hphase |>.imp_right not_or.mp
    exact hne (phaseNext_mask hg hs hp)

/-! ### The configuration -/

theorem instrPhase_isSome {i : Instr} (h : formatOf i = .phase) : (instrPhase i).isSome = true := by
  cases i
  case init | read | ispressed | cmdReserved => cases h
  case cfgOut | cfgIn | cfgInPu | drv | smp | dly => cases h
  case txStart | txPoll | txPad | txPrime => cases h
  case remapNes | remapSnes | remapPsx | remapGpio => cases h
  case faultNone | faultNoVariant | faultBadPinmap => cases h
  case variantNone | variantGpio | variantNes | variantSnes | variantPsx => cases h
  all_goals rfl

theorem exists_phase_of_format {i : Instr} (h : formatOf i = .phase) : ∃ q, phaseInstr q = i := by
  obtain ⟨q, hq⟩ := Option.isSome_iff_exists.mp (instrPhase_isSome h)
  exact ⟨q, by simpa using List.find?_some hq⟩

/-- The state after one bit time (R213). -/
def bitNext (s : State) : State := holdBit (raiseClk (lowerClk (sendBit s)))

theorem bitTime_next {s t : State} (h : bitTime s = .next t) : t = bitNext s := by
  simp only [bitTime, andThen_eq_next] at h
  obtain ⟨c, ⟨b, ⟨a, ha, hb⟩, hc⟩, ht⟩ := h
  obtain ⟨-, rfl⟩ := bitCmd_eq_next.mp ha
  obtain ⟨-, rfl⟩ := bitClkLo_eq_next.mp hb
  obtain ⟨-, rfl⟩ := bitClkHi_eq_next.mp hc
  exact (Host.Outcome.next.inj ht).symm

theorem bitTimes_next {n : Nat} {s t : State} (h : bitTimes n s = .next t) : t = bitNext^[n] s := by
  induction n generalizing s with
  | zero => exact (Host.Outcome.next.inj h).symm
  | succ n ih =>
    obtain ⟨u, hu, ht⟩ := andThen_eq_next.mp h
    rw [Function.iterate_succ_apply, ← bitTime_next hu]
    exact ih ht

@[simp] theorem iterate_bitNext_cfg (n : Nat) (s : State) : (bitNext^[n] s).cfg = s.cfg := by
  induction n generalizing s with
  | zero => rfl
  | succ n ih => exact ih (bitNext s)

@[simp] theorem iterate_bitNext_released (n : Nat) (s : State) : (bitNext^[n] s).released = s.released := by
  induction n generalizing s with
  | zero => rfl
  | succ n ih => exact ih (bitNext s)

theorem transfer_frame {b : Byte} {s t : State} (h : transfer b s = .next t) : t.cfg = s.cfg ∧ t.released = s.released := by
  rw [bitTimes_next h]
  exact ⟨iterate_bitNext_cfg 8 _, iterate_bitNext_released 8 _⟩

theorem acceptCommand_frame {o : HostOp} {a : Byte} {s t : State} (h : acceptCommand o a s = .next t) :
    t.cfg = s.cfg ∧ t.released = s.released := by
  obtain ⟨-, -, rfl⟩ := acceptCommand_next.mp h
  exact ⟨rfl, rfl⟩

theorem exec_phase_frame {q : Phase} {s t : State} (h : exec (phaseInstr q) s = .next t) :
    t.cfg = s.cfg ∧ t.released = s.released := by
  by_cases hq : q = .idle
  · subst hq
    obtain rfl | ⟨o, -, rfl⟩ := execIdle_next h <;> exact ⟨rfl, rfl⟩
  · obtain ⟨-, rfl⟩ := (exec_phase_eq_next fun h => absurd h hq).mp h
    exact ⟨phaseNext_cfg q s, phaseNext_released q s⟩

/-- No operation but a variant code changes the configuration, and none forgets that reset was released. -/
theorem exec_frame {i : Instr} {s t : State} (hi : formatOf i ≠ .variant) (h : exec i s = .next t) :
    t.cfg = s.cfg ∧ t.released = s.released := by
  cases hfmt : formatOf i with
  | variant => exact absurd hfmt hi
  | phase =>
    obtain ⟨q, rfl⟩ := exists_phase_of_format hfmt
    exact exec_phase_frame h
  | cmd =>
    cases i
    case init | read | ispressed => exact acceptCommand_frame h
    case cmdReserved a =>
      have hstop : exec (.cmdReserved a) s ≠ .next t := by
        show (if cmdReady s then _ else _) ≠ _
        split_ifs <;> simp
      exact absurd h hstop
    all_goals cases hfmt
  | trace =>
    cases i
    case cfgOut | cfgIn | cfgInPu =>
      obtain ⟨-, rfl⟩ := configure_next.mp h
      exact ⟨rfl, rfl⟩
    case drv =>
      obtain ⟨-, -, rfl⟩ := drive_next.mp h
      exact ⟨rfl, rfl⟩
    case smp p =>
      obtain ⟨-, -, ht⟩ := sample_next.mp (show sample p s (fun _ u => .next u) = .next t from h)
      cases ht
      exact ⟨rfl, rfl⟩
    case dly =>
      cases h
      exact ⟨rfl, rfl⟩
    all_goals cases hfmt
  | byte =>
    cases i
    case txStart | txPoll | txPad | txPrime => exact transfer_frame h
    all_goals cases hfmt
  | sr8 | gpio | sr12 | frame | fault =>
    cases i
    case remapNes | remapGpio | remapSnes | remapPsx | faultNone | faultNoVariant | faultBadPinmap =>
      cases h
      exact ⟨rfl, rfl⟩
    all_goals cases hfmt

/-- A variant code selects its variant before reset is released, and stops ever after (R8, R37). -/
theorem exec_variant_eq {i : Instr} (hi : formatOf i = .variant) : ∃ v, ∀ s, exec i s = selectVariant v s := by
  cases i
  case variantNone => exact ⟨.unselected, fun _ => rfl⟩
  case variantGpio => exact ⟨.gpio, fun _ => rfl⟩
  case variantNes => exact ⟨.nes, fun _ => rfl⟩
  case variantSnes => exact ⟨.snes, fun _ => rfl⟩
  case variantPsx => exact ⟨.psx, fun _ => rfl⟩
  all_goals cases hi

/-- Settles O7. -/
theorem noStepChangesTheConfiguration : Obligations.NoStepChangesTheConfiguration := by
  unfold Obligations.NoStepChangesTheConfiguration
  refine ⟨fun s t h => ?_, fun i s t h => ?_, fun s b => setRst_cfg b s, fun s o a => ⟨present_cfg o a s, present_released o a s⟩⟩
  · obtain ⟨-, rfl⟩ | ⟨-, -, o, -, rfl⟩ | ⟨-, -, -, rfl⟩ := step_cases h
    · exact ⟨rfl, rfl⟩
    · exact ⟨rfl, rfl⟩
    · exact ⟨phaseNext_cfg _ _, phaseNext_released _ _⟩
  · by_cases hi : formatOf i = .variant
    · obtain ⟨v, hv⟩ := exec_variant_eq hi
      obtain ⟨hrst, hrel, rfl⟩ := selectVariant_eq_next.mp (hv s ▸ h)
      exact ⟨rfl, fun hfixed => by simp [hrst, hrel] at hfixed⟩
    · obtain ⟨hcfg, hrel⟩ := exec_frame hi h
      exact ⟨hrel, fun _ => ⟨hcfg, congrArg pinmapValid hcfg⟩⟩

end Sys2Proof.Proofs.StepRules
end

section
/-! The invariant of the sequencer: reset meets it, every step keeps it (R20, R29 to R34, R42 to R44, R61, R69, R124). -/
namespace Sys2Proof.Proofs.Invariant
open Sys2Proof Sys2Proof.Machine Sys2Proof.Proofs.Steps Sys2Proof.Proofs.StepRules Sys2Proof.Proofs.RoleMaps

/-! ### The order of the phases -/

/-- The phases that can follow a phase, waiting in IDLE included (R124, R127, R128). -/
def successors : Phase → List Phase
  | .idle | .respond => [.idle]
  | .dispatch => [.halt, .gInit, .sInit, .pInit, .gClear, .sLatchHi, .pSettle]
  | .halt => [.halt]
  | .gInit | .gDone | .sInit | .sRemap | .pRemap => [.respond]
  | .gClear => [.gSmp]
  | .gSmp => [.gSmp, .gDone]
  | .sLatchHi => [.sLatchLo]
  | .sLatchLo => [.sSample]
  | .sSample => [.sClkLo]
  | .sClkLo => [.sClkHi]
  | .sClkHi => [.sSample, .sRemap]
  | .pInit => [.pSettle]
  | .pSettle => [.pAttLo]
  | .pAttLo => [.pLoad]
  | .pLoad => [.xCmd]
  | .xCmd => [.xClkLo]
  | .xClkLo => [.xClkHi]
  | .xClkHi => [.xHold]
  | .xHold => [.xCmd, .pStore]
  | .pStore => [.pLoad, .pAttHi]
  | .pAttHi => [.pSettle, .respond, .pRemap]

theorem phaseNext_phase_mem (q : Phase) (s : State) : (phaseNext q s).phase ∈ successors q := by
  cases q
  case dispatch =>
    simp only [phaseNext, dispatchNext]
    cases variantOf s <;> split_ifs <;> simp [successors, initPhase, pollPhase]
  case pAttHi =>
    simp only [phaseNext, attHiNext]
    split_ifs <;> simp [successors]
  case gSmp | sClkHi | xHold | pStore =>
    simp only [phaseNext]
    split_ifs <;> simp [successors]
  all_goals exact List.mem_singleton.mpr rfl

theorem mem_allPhases (q : Phase) : q ∈ allPhases := by cases q <;> decide

/-- Whether the init phase has been executed, by phase and `INITED` (R42, R127). -/
def configuredAt (q : Phase) (inited : Bool) : Bool :=
  match q with
  | .idle | .dispatch => inited
  | .halt => false
  | q => !q.isInit

theorem pinsConfigured_eq (s : State) : pinsConfigured s = configuredAt s.phase s.inited := rfl

theorem fits_of_successor {q q' : Phase} {v : Variant} (hq : q ≠ .dispatch) (hnext : q' ∈ successors q)
    (h : q.fits v = true) : q'.fits v = true := by
  have hall : ∀ q ∈ allPhases, q ≠ .dispatch → ∀ q' ∈ successors q, (readersOf q').isEmpty = true ∨ readersOf q' = readersOf q := by
    decide
  rcases hall q (mem_allPhases q) hq q' hnext with hnone | hsame
  · simp [Phase.fits, hnone]
  · simpa [Phase.fits, hsame] using h

/-- Past the check of DISPATCH a phase follows only one past the check; the first IDLE after it is that of RESPOND. -/
theorem checked_of_successor {q q' : Phase} {i i' : Bool} (hq : q ≠ .dispatch) (hnext : q' ∈ successors q)
    (hi : q ≠ .respond → i' = i) (h : configuredAt q' i' = true ∨ q'.isInit = true) :
    configuredAt q i = true ∨ q.isInit = true := by
  have hall : ∀ q ∈ allPhases, q ≠ .dispatch → ∀ q' ∈ successors q, ∀ i i', (q ≠ .respond → i' = i) →
      configuredAt q' i' = true ∨ q'.isInit = true → configuredAt q i = true ∨ q.isInit = true := by decide
  exact hall q (mem_allPhases q) hq q' hnext i i' hi h

theorem halt_iff_of_successor {q q' : Phase} (hq : q ≠ .dispatch) (hnext : q' ∈ successors q) : q' = .halt ↔ q = .halt := by
  have hall : ∀ q ∈ allPhases, q ≠ .dispatch → ∀ q' ∈ successors q, q' = .halt ↔ q = .halt := by decide
  exact hall q (mem_allPhases q) hq q' hnext

/-! ### Configuration -/

theorem configInv_dispatch {s : State} (hcfg : ConfigInv s) (hctl : ControlInv s) (hq : s.phase = .dispatch) :
    ConfigInv (dispatchNext s) := by
  obtain ⟨hfault, -, -, hchecked, -⟩ := hcfg
  have hop : s.op = .init ↔ s.inited = false := hctl.1 (by simp [hq]) (by simp [hq])
  have hok : s.fault = .ok := hfault.mpr (by simp [hq])
  unfold dispatchNext
  split_ifs with hinit hnone hbad
  · exact ⟨by simp, fun _ => hnone, nofun, by simp [pinsConfigured, Phase.isInit], rfl⟩
  · exact ⟨by simp, nofun, fun _ => ⟨hnone, hbad⟩, by simp [pinsConfigured, Phase.isInit], rfl⟩
  · have hgood : variantOf s ≠ .unselected ∧ pinmapValid s.cfg = true := ⟨hnone, by simpa using hbad⟩
    refine ⟨?_, by simp [hok], by simp [hok], fun _ => hgood, ?_⟩
    · cases variantOf s <;> simp [hok, initPhase]
    · show (initPhase (variantOf s)).fits (variantOf s) = true
      cases hv : variantOf s
      case unselected => exact absurd hv hnone
      all_goals rfl
  · have hinited : s.inited = true := by simpa [hop] using hinit
    have hgood := hchecked (.inl (by simp [pinsConfigured, hq, hinited]))
    refine ⟨?_, by simp [hok], by simp [hok], fun _ => hgood, ?_⟩
    · cases variantOf s <;> simp [hok, pollPhase]
    · show (pollPhase (variantOf s)).fits (variantOf s) = true
      cases hv : variantOf s
      case unselected => exact absurd hv hgood.1
      all_goals rfl

theorem configInv_phaseNext {s : State} (hcfg : ConfigInv s) (hctl : ControlInv s) : ConfigInv (phaseNext s.phase s) := by
  by_cases hq : s.phase = .dispatch
  · rw [hq]
    exact configInv_dispatch hcfg hctl hq
  · obtain ⟨hfault, hnone, hbad, hchecked, hfits⟩ := hcfg
    have hnext := phaseNext_phase_mem s.phase s
    have hsame : (phaseNext s.phase s).fault = s.fault := phaseNext_fault fun h => absurd h hq
    have hvar : variantOf (phaseNext s.phase s) = variantOf s := by simp [variantOf]
    have hkeep : s.phase ≠ .respond → (phaseNext s.phase s).inited = s.inited := fun h => by simp [phaseNext_inited, h]
    refine ⟨?_, ?_, ?_, fun h => ?_, ?_⟩
    · rw [hsame, hfault, ne_eq, ne_eq, halt_iff_of_successor hq hnext]
    · rwa [hsame, hvar]
    · rwa [hsame, hvar, phaseNext_cfg]
    · rw [hvar, phaseNext_cfg]
      exact hchecked (checked_of_successor hq hnext hkeep h)
    · rw [hvar]
      exact fits_of_successor hq hnext hfits

/-! ### Control -/

/-- What the invariant asks of the control registers, as a truth value (R32, R33, R122). -/
def controlAt (q : Phase) (op : HostOp) (inited prime : Bool) : Bool :=
  (q == .idle || q == .halt || (op == .init) == !inited) && (!(q == .halt || q.isInit) || !inited) && (!q.pollOnly || inited) &&
    prime == (q.inFrame && !inited)

theorem controlInv_iff (s : State) : ControlInv s ↔ controlAt s.phase s.op s.inited s.prime = true := by
  unfold ControlInv controlAt
  by_cases hidle : s.phase = .idle <;> by_cases hhalt : s.phase = .halt <;> by_cases hop : s.op = .init <;> cases s.inited <;>
    simp [hidle, hhalt, hop]

/-- The phases that do not decide about `PRIME` or the kind of the command hand the control registers on. -/
theorem controlAt_of_successor {q q' : Phase} (hq : q ∉ [Phase.dispatch, .pInit, .pAttHi]) (hnext : q' ∈ successors q) {op : HostOp}
    {inited prime : Bool} (h : controlAt q op inited prime = true) :
    controlAt q' op (inited || decide (q = .respond ∧ op = .init)) prime = true := by
  have hall : ∀ q ∈ allPhases, q ∉ [Phase.dispatch, .pInit, .pAttHi] → ∀ q' ∈ successors q,
      ∀ op ∈ [HostOp.init, .read, .ispressed], ∀ inited prime, controlAt q op inited prime = true →
        controlAt q' op (inited || decide (q = .respond ∧ op = .init)) prime = true := by decide
  exact hall q (mem_allPhases q) hq q' hnext op (by cases op <;> decide) inited prime h

theorem phaseNext_prime {q : Phase} {s : State} (hq : q ∉ [Phase.dispatch, .pInit, .pAttHi]) : (phaseNext q s).prime = s.prime := by
  cases q
  case dispatch | pInit | pAttHi => simp at hq
  all_goals rfl

/-- While a command is in progress `INITED` tells whether it is INIT. -/
theorem op_init_iff {s : State} (hctl : ControlInv s) (hidle : s.phase ≠ .idle) (hhalt : s.phase ≠ .halt) :
    s.op = .init ↔ s.inited = false := hctl.1 hidle hhalt

theorem inited_of_poll {s : State} (hctl : ControlInv s) (hidle : s.phase ≠ .idle) (hhalt : s.phase ≠ .halt) (hop : s.op ≠ .init) :
    s.inited = true := by
  simpa [op_init_iff hctl hidle hhalt] using hop

theorem prime_eq {s : State} (hctl : ControlInv s) : s.prime = (s.phase.inFrame && !s.inited) := hctl.2.2.2

theorem controlInv_dispatch {s : State} (hctl : ControlInv s) (hq : s.phase = .dispatch) : ControlInv (dispatchNext s) := by
  have hprime : s.prime = false := by
    rw [prime_eq hctl, hq]
    rfl
  rw [controlInv_iff]
  by_cases hop : s.op = .init
  · have hinited := (op_init_iff hctl (by simp [hq]) (by simp [hq])).mp hop
    simp only [dispatchNext, if_pos hop]
    split_ifs
    · simp [controlAt, Phase.pollOnly, Phase.inFrame, hinited, hprime]
    · simp [controlAt, Phase.pollOnly, Phase.inFrame, hinited, hprime]
    · cases variantOf s <;> simp [controlAt, initPhase, Phase.pollOnly, Phase.inFrame, hop, hinited, hprime]
  · have hinited := inited_of_poll hctl (by simp [hq]) (by simp [hq]) hop
    simp only [dispatchNext, if_neg hop]
    cases variantOf s <;> simp [controlAt, pollPhase, Phase.isInit, Phase.inFrame, hop, hinited, hprime]

theorem controlInv_attHi {s : State} (hctl : ControlInv s) (hq : s.phase = .pAttHi) : ControlInv (attHiNext s) := by
  have hop := op_init_iff hctl (by simp [hq]) (by simp [hq])
  have hprime : s.prime = !s.inited := by simpa [hq, Phase.inFrame] using prime_eq hctl
  rw [controlInv_iff]
  unfold attHiNext
  cases hinited : s.inited <;> simp only [hinited, Bool.not_false, Bool.not_true] at hprime hop
  · simp only [hprime, if_true]
    split_ifs <;> simp [controlAt, Phase.pollOnly, Phase.isInit, Phase.inFrame, hop]
  · simp [controlAt, Phase.isInit, Phase.inFrame, hop, hprime]

theorem controlInv_pInit {s : State} (hctl : ControlInv s) (hq : s.phase = .pInit) : ControlInv (phaseNext .pInit s) := by
  have hinited : s.inited = false := hctl.2.1 (by simp [hq, Phase.isInit])
  have hop := (op_init_iff hctl (by simp [hq]) (by simp [hq])).mpr hinited
  simp [controlInv_iff, controlAt, phaseNext, Phase.pollOnly, Phase.isInit, Phase.inFrame, hop, hinited]

theorem controlInv_phaseNext {s : State} (hctl : ControlInv s) : ControlInv (phaseNext s.phase s) := by
  by_cases hq : s.phase ∈ [Phase.dispatch, .pInit, .pAttHi]
  · simp only [List.mem_cons, List.not_mem_nil, or_false] at hq
    rcases hq with hq | hq | hq <;> rw [hq]
    · exact controlInv_dispatch hctl hq
    · exact controlInv_pInit hctl hq
    · exact controlInv_attHi hctl hq
  · rw [controlInv_iff, phaseNext_op, phaseNext_inited, phaseNext_prime hq]
    exact controlAt_of_successor hq (phaseNext_phase_mem _ _) ((controlInv_iff s).mp hctl)

/-! ### Counters -/

theorem setOnLow_lt_of_bit_lt {l : Level} {v : BitVec 12} {k : Nat} (hv : v.toNat < 256) (hk : k < 8) :
    (setOnLow l v k).toNat < 256 := by
  unfold setOnLow
  split_ifs
  · rw [BitVec.toNat_or, BitVec.toNat_twoPow]
    have hbit : 2 ^ k % 2 ^ 12 < 2 ^ 8 :=
      lt_of_le_of_lt (Nat.mod_le _ _) (Nat.pow_lt_pow_right (by decide) hk)
    exact Nat.or_lt_two_pow (n := 8) hv hbit
  · exact hv

theorem frameBits_le (s : State) : frameBits s ≤ 12 := by
  unfold frameBits
  split_ifs <;> decide

theorem frameBytes_le (p : Bool) : frameBytes p ≤ 5 := by cases p <;> decide

theorem counterInv_phaseNext {s : State} (hcnt : CounterInv s) {q : Phase} (hq : s.phase = q) :
    CounterInv (phaseNext q s) := by
  obtain ⟨hbutton, hlatch, hshift, hbyte, hframe, hprime, hscr⟩ := hcnt
  rw [hq] at hbutton hlatch hshift hbyte hframe hscr
  cases q
  case dispatch =>
    simp only [phaseNext, dispatchNext]
    cases variantOf s <;> split_ifs <;>
      simpa [CounterInv, initPhase, pollPhase, Phase.inShiftBit, Phase.inByte] using hprime
  case gClear => simpa [CounterInv, phaseNext, Phase.inShiftBit, Phase.inByte] using hprime
  case gSmp =>
    simp only [phaseNext]
    split_ifs with hmore
    · simpa [CounterInv, Phase.inShiftBit, Phase.inByte] using And.intro hmore hprime
    · simpa [CounterInv, Phase.inShiftBit, Phase.inByte] using hprime
  case sLatchHi => simpa [CounterInv, phaseNext, Phase.inShiftBit, Phase.inByte] using hprime
  case sLatchLo =>
    have hbit : s.bitcnt = 0#4 := hlatch rfl
    have hpos : 0 < frameBits s := by
      unfold frameBits
      split_ifs <;> decide
    refine ⟨nofun, nofun, fun _ => ?_, nofun, by simp [phaseNext, Phase.inByte], hprime, fun _ => hscr (by simp)⟩
    show s.bitcnt.toNat < frameBits s
    simpa [hbit] using hpos
  case sSample =>
    refine ⟨nofun, nofun, fun _ => hshift rfl, nofun, by simp [phaseNext, Phase.inByte], hprime, fun _ hnes => ?_⟩
    have hnes : variantOf s = .nes := hnes
    have hbit : s.bitcnt.toNat < 8 := by simpa [frameBits, hnes] using hshift rfl
    exact setOnLow_lt_of_bit_lt (hscr (by simp [Phase.inShiftBit]) hnes) hbit
  case sClkLo =>
    exact ⟨nofun, nofun, fun _ => hshift rfl, nofun, by simp [phaseNext, Phase.inByte], hprime,
      fun _ => hscr (by simp [Phase.inShiftBit])⟩
  case sClkHi =>
    have hscr' := hscr (by simp [Phase.inShiftBit])
    simp only [phaseNext]
    split_ifs with hmore
    · exact ⟨nofun, nofun, fun _ => hmore, nofun, by simp [Phase.inByte], hprime, fun _ => hscr'⟩
    · exact ⟨nofun, nofun, nofun, nofun, by simp [Phase.inByte], hprime, fun _ => hscr'⟩
  case pInit => simp [CounterInv, phaseNext, Phase.inShiftBit, Phase.inByte, nPrime]
  case pAttLo =>
    have hpos : 0 < frameBytes s.prime := by cases s.prime <;> decide
    simpa [CounterInv, phaseNext, Phase.inShiftBit, Phase.inByte, hpos] using hprime
  case pLoad =>
    have hbytecnt := hframe (by simp)
    simpa [CounterInv, phaseNext, Phase.inShiftBit, Phase.inByte, hbytecnt] using hprime
  case xCmd | xClkLo | xClkHi =>
    have hbit := hbyte rfl
    have hbytecnt := hframe (by simp [Phase.inByte])
    exact ⟨nofun, nofun, nofun, fun _ => hbit, fun _ => hbytecnt, hprime, by simp [phaseNext, Phase.inShiftBit]⟩
  case xHold =>
    have hbytecnt := hframe (by simp [Phase.inByte])
    simp only [phaseNext]
    split_ifs with hmore
    · exact ⟨nofun, nofun, nofun, fun _ => hmore, fun _ => hbytecnt, hprime, by simp [Phase.inShiftBit]⟩
    · exact ⟨nofun, nofun, nofun, nofun, fun _ => hbytecnt, hprime, by simp [Phase.inShiftBit]⟩
  case pStore =>
    simp only [phaseNext]
    split_ifs with hmore
    · exact ⟨nofun, nofun, nofun, nofun, fun _ => hmore, hprime, by simp [Phase.inShiftBit]⟩
    · exact ⟨nofun, nofun, nofun, nofun, by simp [Phase.inByte], hprime, by simp [Phase.inShiftBit]⟩
  case pAttHi =>
    simp only [phaseNext, attHiNext]
    split_ifs with hp hmore
    · simpa [CounterInv, Phase.inShiftBit, Phase.inByte] using fun _ => hmore
    · simp [CounterInv, Phase.inShiftBit, Phase.inByte]
    · simp [CounterInv, Phase.inShiftBit, Phase.inByte, hp]
  all_goals simpa [CounterInv, phaseNext, Phase.inShiftBit, Phase.inByte] using hprime

/-! ### Pins -/

theorem variant_of_direct {s : State} {q : Phase} (hq : s.phase = q) (hfits : s.phase.fits (variantOf s) = true)
    (hr : readersOf q = [.gpio]) : variantOf s = .gpio := by
  simpa [hq, Phase.fits, hr] using hfits

theorem variant_of_shift {s : State} {q : Phase} (hq : s.phase = q) (hfits : s.phase.fits (variantOf s) = true)
    (hr : readersOf q = [.nes, .snes]) : variantOf s = .nes ∨ variantOf s = .snes := by
  simpa [hq, Phase.fits, hr] using hfits

theorem variant_of_serial {s : State} {q : Phase} (hq : s.phase = q) (hfits : s.phase.fits (variantOf s) = true)
    (hr : readersOf q = [.psx]) : variantOf s = .psx := by
  simpa [hq, Phase.fits, hr] using hfits

/-- A configured block's pins keep the invariant where modes and configuration stay and the driven lines follow the phase. -/
theorem pinsInv_of_lines {s t : State} (hpins : PinsInv s) (hs : pinsConfigured s = true) (ht : pinsConfigured t = true)
    (hcfg : t.cfg = s.cfg) (hmode : t.mode = s.mode)
    (hlines : s.outlvl = drivenLines (variantOf s) s.phase (s.outlvl.get .cmd) →
      t.outlvl = drivenLines (variantOf s) t.phase (t.outlvl.get .cmd))
    (hcmd : t.outlvl.get .cmd = s.outlvl.get .cmd ∨ t.outlvl.get .cmd ≠ none) : PinsInv t := by
  have hvar : variantOf t = variantOf s := by rw [variantOf, hcfg, variantOf]
  obtain ⟨hm, hl, hc⟩ := hpins.1 hs
  refine ⟨fun _ => ⟨by rw [hmode, hvar, hm], by rw [hvar]; exact hlines hl, fun hpsx => ?_⟩, fun h => by simp [ht] at h⟩
  rcases hcmd with hsame | hdriven
  · rw [hsame]
    exact hc (hvar ▸ hpsx)
  · exact hdriven

theorem drivenLines_gpio (q : Phase) (c : Option Level) : drivenLines .gpio q c = RoleMap.const none := rfl

theorem drivenLines_put_latch {v : Variant} (hv : v = .nes ∨ v = .snes) (q q' : Phase) (hclock : clockLevel q = clockLevel q')
    (c c' : Option Level) : (drivenLines v q c).put .latch (some (latchLevel q')) = drivenLines v q' c' := by
  rcases hv with rfl | rfl <;>
    simp only [drivenLines, put_comm _ (show Role.clock ≠ Role.latch by decide), put_put, hclock]

theorem drivenLines_put_clock {v : Variant} (hv : v = .nes ∨ v = .snes) (q q' : Phase) (hlatch : latchLevel q = latchLevel q')
    (c c' : Option Level) : (drivenLines v q c).put .clock (some (clockLevel q')) = drivenLines v q' c' := by
  rcases hv with rfl | rfl <;> simp only [drivenLines, put_put, hlatch]

theorem drivenLines_put_att (q q' : Phase) (hclk : clkLevel q = clkLevel q') (c : Option Level) :
    (drivenLines .psx q c).put .att (some (attLevel q')) = drivenLines .psx q' c := by
  simp only [drivenLines, put_comm _ (show Role.clk ≠ Role.att by decide), put_comm _ (show Role.cmd ≠ Role.att by decide),
    put_put, hclk]

theorem drivenLines_put_clk (q q' : Phase) (hatt : attLevel q = attLevel q') (c : Option Level) :
    (drivenLines .psx q c).put .clk (some (clkLevel q')) = drivenLines .psx q' c := by
  simp only [drivenLines, put_comm _ (show Role.cmd ≠ Role.clk by decide), put_put, hatt]

theorem drivenLines_put_cmd (q q' : Phase) (hatt : attLevel q = attLevel q') (hclk : clkLevel q = clkLevel q')
    (c c' : Option Level) : (drivenLines .psx q c).put .cmd c' = drivenLines .psx q' c' := by
  simp only [drivenLines, put_put, hatt, hclk]

/-- The four levels a phase calls for. -/
def levelsAt (q : Phase) : Level × Level × Level × Level := (latchLevel q, clockLevel q, attLevel q, clkLevel q)

theorem drivenLines_congr {q q' : Phase} (h : levelsAt q = levelsAt q') (v : Variant) (c : Option Level) :
    drivenLines v q c = drivenLines v q' c := by
  simp only [levelsAt, Prod.mk.injEq] at h
  obtain ⟨hlatch, hclock, hatt, hclk⟩ := h
  cases v <;> simp only [drivenLines, hlatch, hclock, hatt, hclk]

/-- A phase that drives nothing and is followed by one with the same levels keeps the pins of a configured block. -/
theorem pinsInv_of_same {s t : State} (hpins : PinsInv s) (hs : pinsConfigured s = true) (ht : pinsConfigured t = true)
    (hcfg : t.cfg = s.cfg) (hmode : t.mode = s.mode) (hout : t.outlvl = s.outlvl) (hlevels : levelsAt s.phase = levelsAt t.phase) :
    PinsInv t :=
  pinsInv_of_lines hpins hs ht hcfg hmode (fun h => by rw [hout, ← drivenLines_congr hlevels]; exact h) (.inl (by rw [hout]))

/-- A phase that drives one line to the level the next phase calls for keeps the pins of a configured block. -/
theorem pinsInv_of_put {s t : State} (hpins : PinsInv s) (hs : pinsConfigured s = true) (ht : pinsConfigured t = true)
    (hcfg : t.cfg = s.cfg) (hmode : t.mode = s.mode) {p : Role} {l : Level} (hout : t.outlvl = s.outlvl.put p (some l))
    {v : Variant} (hv : variantOf s = v) {q : Phase} (hq : s.phase = q)
    (hput : ∀ c, (drivenLines v q c).put p (some l) = drivenLines v t.phase (if p = .cmd then some l else c)) : PinsInv t := by
  subst hv hq
  have hcmd : t.outlvl.get .cmd = if p = .cmd then some l else s.outlvl.get .cmd := by rw [hout, get_put]
  refine pinsInv_of_lines hpins hs ht hcfg hmode (fun h => ?_) ?_
  · rw [hcmd, ← hput, ← h, hout]
  · rw [hcmd]
    split_ifs
    · exact .inr (by simp)
    · exact .inl rfl

theorem pinsInv_unconfigured {t : State} (ht : pinsConfigured t = false) (hmode : t.mode = RoleMap.const .unconfigured)
    (hout : t.outlvl = RoleMap.const none) : PinsInv t :=
  ⟨fun h => by simp [ht] at h, fun _ => ⟨hmode, hout⟩⟩

theorem pinsInv_dispatch {s : State} (hpins : PinsInv s) (hctl : ControlInv s) (hq : s.phase = .dispatch) :
    PinsInv (dispatchNext s) := by
  by_cases hop : s.op = .init
  · have hinited := (op_init_iff hctl (by simp [hq]) (by simp [hq])).mp hop
    obtain ⟨hmode, hout⟩ := hpins.2 (by simp [pinsConfigured, hq, hinited])
    simp only [dispatchNext, if_pos hop]
    split_ifs
    · exact pinsInv_unconfigured rfl hmode hout
    · exact pinsInv_unconfigured rfl hmode hout
    · exact pinsInv_unconfigured (by cases variantOf s <;> rfl) hmode hout
  · have hinited := inited_of_poll hctl (by simp [hq]) (by simp [hq]) hop
    simp only [dispatchNext, if_neg hop]
    refine pinsInv_of_same hpins (by simp [pinsConfigured, hq, hinited]) ?_ rfl rfl rfl ?_
    · cases variantOf s <;> rfl
    · rw [hq]
      cases variantOf s <;> rfl

theorem pinsInv_phaseNext {s : State} (hpins : PinsInv s) (hcfg : ConfigInv s) (hctl : ControlInv s) {q : Phase} (hq : s.phase = q) :
    PinsInv (phaseNext q s) := by
  obtain ⟨-, -, -, -, hfits⟩ := hcfg
  have hready : configuredAt q s.inited = true → pinsConfigured s = true := fun h => by rwa [pinsConfigured_eq, hq]
  have hraw : configuredAt q s.inited = false → s.mode = RoleMap.const .unconfigured ∧ s.outlvl = RoleMap.const none :=
    fun h => hpins.2 (by rwa [pinsConfigured_eq, hq])
  have hsame : levelsAt q = levelsAt (phaseNext q s).phase → levelsAt s.phase = levelsAt (phaseNext q s).phase := fun h => by rwa [hq]
  cases q
  case dispatch => exact pinsInv_dispatch hpins hctl hq
  case idle =>
    cases hinited : s.inited
    · obtain ⟨hmode, hout⟩ := hraw hinited
      exact pinsInv_unconfigured hinited hmode hout
    · exact pinsInv_of_same hpins (hready hinited) hinited rfl rfl rfl (hsame rfl)
  case respond =>
    have hinited : (phaseNext .respond s).inited = true := by
      have hop := op_init_iff hctl (by simp [hq]) (by simp [hq])
      rw [phaseNext_inited]
      cases h : s.inited <;> simp_all
    exact pinsInv_of_same hpins (hready rfl) hinited rfl rfl rfl (hsame rfl)
  case halt =>
    obtain ⟨hmode, hout⟩ := hraw rfl
    exact pinsInv_unconfigured rfl hmode hout
  case gInit =>
    obtain ⟨hmode, hout⟩ := hraw rfl
    have hv := variant_of_direct hq hfits rfl
    have hv' : variantOf (phaseNext .gInit s) = .gpio := hv
    refine ⟨fun _ => ⟨?_, ?_, fun h => by simp [hv'] at h⟩, nofun⟩
    · rw [hv']
      simp only [phaseNext, hmode]
      decide
    · rw [hv', drivenLines_gpio]
      exact hout
  case sInit =>
    obtain ⟨hmode, hout⟩ := hraw rfl
    have hv := variant_of_shift hq hfits rfl
    have hv' : variantOf (phaseNext .sInit s) = .nes ∨ variantOf (phaseNext .sInit s) = .snes := hv
    refine ⟨fun _ => ⟨?_, ?_, fun h => by simp [h] at hv'⟩, nofun⟩
    · simp only [phaseNext, hmode] at hv' ⊢
      rcases hv' with h | h <;> rw [h] <;> decide
    · simp only [phaseNext, hout] at hv' ⊢
      rcases hv' with h | h <;> rw [h] <;> decide
  case pInit =>
    obtain ⟨hmode, hout⟩ := hraw rfl
    have hv := variant_of_serial hq hfits rfl
    have hv' : variantOf (phaseNext .pInit s) = .psx := hv
    refine ⟨fun _ => ⟨?_, ?_, fun _ => by simp [phaseNext]⟩, nofun⟩
    · rw [hv']
      simp only [phaseNext, hmode]
      decide
    · rw [hv']
      simp only [phaseNext, hout]
      decide
  case gClear | gDone | sSample | sRemap | pSettle | pLoad | pRemap =>
    exact pinsInv_of_same hpins (hready rfl) rfl rfl rfl rfl (hsame rfl)
  case gSmp | xHold | pStore =>
    simp only [phaseNext] at hsame ⊢
    split_ifs at hsame ⊢ <;> exact pinsInv_of_same hpins (hready rfl) rfl rfl rfl rfl (hsame rfl)
  case sLatchHi =>
    exact pinsInv_of_put hpins (hready rfl) rfl rfl rfl rfl rfl hq fun c =>
      drivenLines_put_latch (variant_of_shift hq hfits rfl) .sLatchHi .sLatchLo rfl c c
  case sLatchLo =>
    exact pinsInv_of_put hpins (hready rfl) rfl rfl rfl rfl rfl hq fun c =>
      drivenLines_put_latch (variant_of_shift hq hfits rfl) .sLatchLo .sSample rfl c c
  case sClkLo =>
    exact pinsInv_of_put hpins (hready rfl) rfl rfl rfl rfl rfl hq fun c =>
      drivenLines_put_clock (variant_of_shift hq hfits rfl) .sClkLo .sClkHi rfl c c
  case sClkHi =>
    simp only [phaseNext]
    split_ifs
    · exact pinsInv_of_put hpins (hready rfl) rfl rfl rfl rfl rfl hq fun c =>
        drivenLines_put_clock (variant_of_shift hq hfits rfl) .sClkHi .sSample rfl c c
    · exact pinsInv_of_put hpins (hready rfl) rfl rfl rfl rfl rfl hq fun c =>
        drivenLines_put_clock (variant_of_shift hq hfits rfl) .sClkHi .sRemap rfl c c
  case pAttLo =>
    exact pinsInv_of_put hpins (hready rfl) rfl rfl rfl rfl (variant_of_serial hq hfits rfl) hq
      (drivenLines_put_att .pAttLo .pLoad rfl)
  case pAttHi =>
    have hv := variant_of_serial hq hfits rfl
    simp only [phaseNext, attHiNext]
    split_ifs
    · exact pinsInv_of_put hpins (hready rfl) rfl rfl rfl rfl hv hq (drivenLines_put_att .pAttHi .pSettle rfl)
    · exact pinsInv_of_put hpins (hready rfl) rfl rfl rfl rfl hv hq (drivenLines_put_att .pAttHi .respond rfl)
    · exact pinsInv_of_put hpins (hready rfl) rfl rfl rfl rfl hv hq (drivenLines_put_att .pAttHi .pRemap rfl)
  case xCmd =>
    exact pinsInv_of_put hpins (hready rfl) rfl rfl rfl rfl (variant_of_serial hq hfits rfl) hq fun c =>
      drivenLines_put_cmd .xCmd .xClkLo rfl rfl c _
  case xClkLo =>
    exact pinsInv_of_put hpins (hready rfl) rfl rfl rfl rfl (variant_of_serial hq hfits rfl) hq
      (drivenLines_put_clk .xClkLo .xClkHi rfl)
  case xClkHi =>
    exact pinsInv_of_put hpins (hready rfl) rfl rfl rfl rfl (variant_of_serial hq hfits rfl) hq
      (drivenLines_put_clk .xClkHi .xHold rfl)

/-! ### Reset, acceptance, and the step -/

theorem inv_resetWith (c : Params) : Inv (State.resetWith c) := by
  refine ⟨pinsInv_unconfigured rfl rfl rfl, ?_, ?_, ?_⟩
  · simp [ConfigInv, State.resetWith, pinsConfigured, Phase.isInit, Phase.fits, readersOf]
  · simp [ControlInv, State.resetWith, Phase.pollOnly, Phase.isInit, Phase.inFrame]
  · simp [CounterInv, State.resetWith, Phase.inShiftBit, Phase.inByte]

/-- The invariant does not read the port, the response, the time or the trace. -/
theorem inv_applyReset (s : State) : Inv (applyReset s) := inv_resetWith s.cfg

theorem inv_phaseNext {s : State} (h : Inv s) : Inv (phaseNext s.phase s) := by
  obtain ⟨hpins, hcfg, hctl, hcnt⟩ := h
  exact ⟨pinsInv_phaseNext hpins hcfg hctl rfl, configInv_phaseNext hcfg hctl, controlInv_phaseNext hctl, counterInv_phaseNext hcnt rfl⟩

theorem inv_accepted {s : State} (h : Inv s) (hidle : s.phase = .idle) {o : HostOp} (ho : acceptable o s = true) (a : Byte) :
    Inv (accepted o a s) := by
  obtain ⟨hpins, ⟨hfault, hnone, hbad, hchecked, -⟩, hctl, ⟨-, -, -, -, -, hprime, -⟩⟩ := h
  have hop : o = .init ↔ s.inited = false := by
    cases o <;> simpa [acceptable] using ho
  have hpc : pinsConfigured (accepted o a s) = pinsConfigured s := by simp [pinsConfigured, accepted, hidle]
  have hp : s.prime = false := by simpa [hidle, Phase.inFrame] using prime_eq hctl
  refine ⟨?_, ?_, ?_, ?_⟩
  · cases hinited : s.inited
    · obtain ⟨hmode, hout⟩ := hpins.2 (by simp [pinsConfigured, hidle, hinited])
      exact pinsInv_unconfigured hinited hmode hout
    · exact pinsInv_of_same hpins (by simp [pinsConfigured, hidle, hinited]) hinited rfl rfl rfl (by rw [hidle]; rfl)
  · have hok : s.fault = .ok := hfault.mpr (by simp [hidle])
    refine ⟨by simp [accepted, hok], hnone, hbad, fun h => hchecked ?_, rfl⟩
    rcases h with h | h
    · exact .inl (hpc ▸ h)
    · cases h
  · simp [ControlInv, accepted, hop, hp, Phase.isInit, Phase.pollOnly, Phase.inFrame]
  · simp [CounterInv, accepted, hp, Phase.inShiftBit, Phase.inByte]

/-- Settles O14: the pins are released, no command is in progress, and nothing is recorded. -/
theorem resetMeetsTheInvariants : Obligations.ResetMeetsTheInvariants := by
  unfold Obligations.ResetMeetsTheInvariants
  exact fun c => ⟨inv_resetWith c, .nil, nofun⟩

theorem inv_step {s t : State} (h : Inv s) (hstep : step s = .next t) : Inv t := by
  have hdrop : Inv (dropResponse s) := h
  obtain ⟨-, rfl⟩ | ⟨-, hseen, o, ho, rfl⟩ | ⟨-, -, -, rfl⟩ := step_cases hstep
  · exact inv_applyReset s
  · exact inv_accepted hdrop (phase_of_commandSeen hseen) ho _
  · exact inv_phaseNext hdrop

/-- Settles O15: reset gives the invariant, acceptance and every phase keep it. -/
theorem stepsKeepTheInvariant : Obligations.StepsKeepTheInvariant := by
  unfold Obligations.StepsKeepTheInvariant
  exact fun s t h hstep => inv_step h hstep

end Sys2Proof.Proofs.Invariant
end

section
/-! Progress: in a state of the invariant no phase stops, and every command in progress nears its response (R14, R130, R143, R144). -/
namespace Sys2Proof.Proofs.Progress
open Sys2Proof Sys2Proof.Machine Sys2Proof.Proofs.Steps Sys2Proof.Proofs.StepRules Sys2Proof.Proofs.RoleMaps
  Sys2Proof.Proofs.Invariant

/-! ### No phase stops -/

theorem hasRole_of_variant {s : State} {v : Variant} (hv : variantOf s = v) {p : Role} (hp : p ∈ v.roles) : hasRole s p = true := by
  simp [hasRole, hv, hp]

theorem mode_of_inv {s : State} (h : Inv s) (hpc : pinsConfigured s = true) {v : Variant} (hv : variantOf s = v) {p : Role}
    (hp : p ∈ v.roles) : s.mode.get p = p.initMode := by
  obtain ⟨hmode, -, -⟩ := h.1.1 hpc
  rw [hmode, hv, get_initModes, if_pos hp]

theorem canDrive_of_inv {s : State} (h : Inv s) (hpc : pinsConfigured s = true) {v : Variant} (hv : variantOf s = v) {p : Role}
    (hp : p ∈ v.roles) (hout : p.initMode = .out) : CanDrive p s :=
  ⟨hasRole_of_variant hv hp, (mode_of_inv h hpc hv hp).trans hout⟩

theorem canRead_of_inv {s : State} (h : Inv s) (hpc : pinsConfigured s = true) {v : Variant} (hv : variantOf s = v) {p : Role}
    (hp : p ∈ v.roles) (hin : p.initMode = .inp ∨ p.initMode = .inpPullUp) : CanRead p s := by
  refine ⟨hasRole_of_variant hv hp, ?_⟩
  rw [← mode_of_inv h hpc hv hp] at hin
  simpa [canSample] using hin

theorem btn_mem_roles (i : Fin 8) : Role.btn i ∈ Variant.gpio.roles := by revert i; decide

/-- The three lines of the shift reader, in both variants. -/
theorem shift_lines_of_inv {s : State} (h : Inv s) (hpc : pinsConfigured s = true) (hv : variantOf s = .nes ∨ variantOf s = .snes) :
    CanDrive .latch s ∧ CanDrive .clock s ∧ CanRead .data s := by
  rcases hv with hv | hv <;>
    exact ⟨canDrive_of_inv h hpc hv (by decide) rfl, canDrive_of_inv h hpc hv (by decide) rfl,
      canRead_of_inv h hpc hv (by decide) (.inl rfl)⟩

/-- The lines a bit time acts on. -/
abbrev LinesOk (s : State) : Prop := CanDrive .cmd s ∧ CanDrive .clk s ∧ CanRead .dat s

theorem serial_lines_of_inv {s : State} (h : Inv s) (hpc : pinsConfigured s = true) (hv : variantOf s = .psx) :
    CanDrive .att s ∧ LinesOk s :=
  ⟨canDrive_of_inv h hpc hv (by decide) rfl, canDrive_of_inv h hpc hv (by decide) rfl, canDrive_of_inv h hpc hv (by decide) rfl,
    canRead_of_inv h hpc hv (by decide) (.inl rfl)⟩

/-- In a state of the invariant the phase has all it requires: the roles of its reader in their modes, and counters in range. -/
theorem phaseOk_of_inv {s : State} (h : Inv s) : PhaseOk s.phase s := by
  have hfits := h.2.1.2.2.2.2
  obtain ⟨hbutton, -, hshift, hbyte, hframe, -, -⟩ := h.2.2.2
  cases hq : s.phase
  case gInit =>
    have hv := variant_of_direct hq hfits rfl
    exact fun p hp => hasRole_of_variant hv hp
  case gSmp =>
    have hv := variant_of_direct hq hfits rfl
    exact ⟨hbutton hq, canRead_of_inv h (by rw [pinsConfigured_eq, hq]; rfl) hv (btn_mem_roles _) (.inr rfl)⟩
  case sInit =>
    have hv := variant_of_shift hq hfits rfl
    intro p hp
    rcases hv with hv | hv <;> exact hasRole_of_variant hv hp
  case pInit =>
    have hv := variant_of_serial hq hfits rfl
    exact fun p hp => hasRole_of_variant hv hp
  case sLatchHi | sLatchLo =>
    exact (shift_lines_of_inv h (by rw [pinsConfigured_eq, hq]; rfl) (variant_of_shift hq hfits rfl)).1
  case sClkLo | sClkHi =>
    exact (shift_lines_of_inv h (by rw [pinsConfigured_eq, hq]; rfl) (variant_of_shift hq hfits rfl)).2.1
  case sSample =>
    refine ⟨lt_of_lt_of_le (hshift (by rw [hq]; rfl)) (frameBits_le s), ?_⟩
    exact (shift_lines_of_inv h (by rw [pinsConfigured_eq, hq]; rfl) (variant_of_shift hq hfits rfl)).2.2
  case pAttLo | pAttHi =>
    exact (serial_lines_of_inv h (by rw [pinsConfigured_eq, hq]; rfl) (variant_of_serial hq hfits rfl)).1
  case pLoad => exact .inr (lt_of_lt_of_le (hframe (by simp [hq])) (frameBytes_le _))
  case pStore => exact lt_of_lt_of_le (hframe (by simp [hq])) (frameBytes_le _)
  case xCmd =>
    obtain ⟨-, hcmd, -, -⟩ := serial_lines_of_inv h (by rw [pinsConfigured_eq, hq]; rfl) (variant_of_serial hq hfits rfl)
    exact ⟨hbyte (by rw [hq]; rfl), hcmd⟩
  case xClkLo =>
    obtain ⟨-, -, hclk, -⟩ := serial_lines_of_inv h (by rw [pinsConfigured_eq, hq]; rfl) (variant_of_serial hq hfits rfl)
    exact hclk
  case xClkHi =>
    obtain ⟨-, -, hclk, hdat⟩ := serial_lines_of_inv h (by rw [pinsConfigured_eq, hq]; rfl) (variant_of_serial hq hfits rfl)
    exact ⟨hbyte (by rw [hq]; rfl), hclk, hdat⟩
  all_goals trivial

/-- In a state of the invariant, with no reset and no command at the port, the phase runs. -/
theorem step_of_inv {s : State} (h : Inv s) (hrst : s.port.rst = false) (hquiet : commandSeen s = false) :
    step s = .next (phaseNext s.phase (dropResponse s)) :=
  step_of_phaseOk hrst hquiet (phaseOk_of_inv (s := dropResponse s) h)

theorem acceptCommand_not_fault {o : HostOp} {a : Byte} {s : State} {r : Fault} : acceptCommand o a s ≠ .fault r := by
  unfold acceptCommand
  split_ifs <;> simp

theorem exec_cmdInstr_not_fault {o : BitVec 2} {a : Byte} {s : State} {r : Fault} : exec (cmdInstr o a) s ≠ .fault r := by
  rw [exec_cmdInstr]
  split
  · exact acceptCommand_not_fault
  · split_ifs <;> simp

theorem step_of_commandSeen {s : State} (hrst : s.port.rst = false) (hseen : commandSeen s = true) :
    step s = exec (cmdInstr s.port.cmdOp s.port.cmdArg) (dropResponse s) := by
  simp [step, fetch, hrst, hseen]

/-- Settles O16: reset and the phases go on, and a command at the port is accepted or refused. -/
theorem stepsStopOnlyAtThePort : Obligations.StepsStopOnlyAtThePort := by
  unfold Obligations.StepsStopOnlyAtThePort
  intro s h
  cases hrst : s.port.rst
  · cases hseen : commandSeen s
    · simp [step_of_inv h hrst hseen]
    · rw [step_of_commandSeen hrst hseen]
      exact ⟨fun r => exec_cmdInstr_not_fault, fun _ _ => ⟨rfl, rfl⟩⟩
  · simp [step, hrst]

/-! ### One step nearer -/

/-- Steps of an INIT that passes the check (R130). -/
def initSteps : Variant → Nat
  | .gpio | .nes | .snes => 3
  | _ => 77

/-- Steps of a poll (R130). -/
def pollSteps : Variant → Nat
  | .gpio => 12
  | .nes => 29
  | .snes => 41
  | _ => 176

theorem stepsLeft_of_init {s : State} (hq : s.phase = .dispatch) (hop : s.op = .init) : stepsLeft s = initSteps (variantOf s) := by
  simp only [stepsLeft, hq, hop]
  cases variantOf s <;> rfl

theorem stepsLeft_of_poll {s : State} (hq : s.phase = .dispatch) (hop : s.op ≠ .init) : stepsLeft s = pollSteps (variantOf s) := by
  simp only [stepsLeft, hq]
  cases hinit : s.op
  case init => exact absurd hinit hop
  all_goals cases variantOf s <;> rfl

/-- A poll is dispatched in a configured block, outside the priming exchange. -/
theorem dispatched_poll {s : State} (h : Inv s) (hq : s.phase = .dispatch) (hop : s.op ≠ .init) :
    pinsConfigured s = true ∧ variantOf s ≠ .unselected ∧ s.inited = true ∧ s.prime = false := by
  obtain ⟨-, hcfg, hctl, -⟩ := h
  have hinited := inited_of_poll hctl (by simp [hq]) (by simp [hq]) hop
  have hpc : pinsConfigured s = true := by simp [pinsConfigured, hq, hinited]
  have hprime : s.prime = false := by
    rw [prime_eq hctl, hq]
    rfl
  exact ⟨hpc, (hcfg.2.2.2.1 (.inl hpc)).1, hinited, hprime⟩

theorem stepsLeft_dispatch {s : State} (h : Inv s) (hq : s.phase = .dispatch) (hgood : s.op = .init → configured s = true) :
    stepsLeft (dispatchNext s) + 1 = stepsLeft s := by
  by_cases hop : s.op = .init
  · obtain ⟨hv, hpin⟩ : variantOf s ≠ .unselected ∧ pinmapValid s.cfg = true := by simpa [configured] using hgood hop
    rw [stepsLeft_of_init hq hop, dispatchNext, if_pos hop, if_neg hv, if_neg (by simp [hpin])]
    cases hvar : variantOf s
    case unselected => exact absurd hvar hv
    all_goals rfl
  · obtain ⟨-, hv, -, hprime⟩ := dispatched_poll h hq hop
    rw [stepsLeft_of_poll hq hop, dispatchNext, if_neg hop]
    cases hvar : variantOf s
    case unselected => exact absurd hvar hv
    case gpio => rfl
    all_goals simp [stepsLeft, pollPhase, frameBits, variantOf, stepsFromAttHi, frameBytes, hprime] at hvar ⊢
    all_goals simp [hvar, pollSteps]

/-- A counter that is below its range's end does not wrap (R29 to R31, log 23). -/
theorem toNat_succ {w : Nat} {k : BitVec w} {n : Nat} (hk : k.toNat < n) (hn : n < 2 ^ w) : (k + 1#w).toNat = k.toNat + 1 := by
  have hw : w ≠ 0 := by
    rintro rfl
    omega
  rw [BitVec.toNat_add, BitVec.toNat_one (Nat.pos_of_ne_zero hw), Nat.mod_eq_of_lt (by omega)]

theorem stepsLeft_phaseNext {s : State} (h : Inv s) {q : Phase} (hq : s.phase = q) (hidle : q ≠ .idle) (hhalt : q ≠ .halt)
    (hgood : q = .dispatch → s.op = .init → configured s = true) : stepsLeft (phaseNext q s) + 1 = stepsLeft s := by
  obtain ⟨hbutton, hlatch, hshift, hbyte, hframe, hprime, -⟩ := h.2.2.2
  rw [hq] at hbutton hlatch hshift hbyte hframe
  cases q
  case idle | halt => contradiction
  case dispatch => exact stepsLeft_dispatch h hq (hgood rfl)
  case gSmp =>
    have hbit := hbutton rfl
    have hnext := toNat_succ hbit (by decide)
    simp only [phaseNext, hnext]
    split_ifs <;> simp only [stepsLeft, hq, hnext] <;> omega
  case sLatchHi =>
    show 3 * frameBits s + 3 + 1 = _
    simp only [stepsLeft, hq]
  case sLatchLo =>
    show 3 * (frameBits s - s.bitcnt.toNat) + 2 + 1 = _
    simp [stepsLeft, hq, hlatch rfl]
  case sSample =>
    show 3 * (frameBits s - s.bitcnt.toNat) + 1 + 1 = _
    simp only [stepsLeft, hq]
  case sClkLo =>
    show 3 * (frameBits s - s.bitcnt.toNat) + 1 = _
    simp only [stepsLeft, hq]
  case sClkHi =>
    have hbit : s.bitcnt.toNat < frameBits s := hshift rfl
    have hnext := toNat_succ (lt_of_lt_of_le hbit (frameBits_le s)) (by decide)
    simp only [phaseNext, hnext]
    split_ifs
    · show 3 * (frameBits s - (s.bitcnt + 1#4).toNat) + 2 + 1 = _
      simp only [stepsLeft, hq, hnext]
      omega
    · show 2 + 1 = _
      simp only [stepsLeft, hq]
      omega
  case pInit => simp [stepsLeft, phaseNext, hq, stepsFromAttHi, frameBytes, nPrime]
  case pSettle =>
    show 1 + 34 * frameBytes s.prime + stepsFromAttHi s + 1 = _
    simp only [stepsLeft, hq]
    omega
  case pAttLo =>
    show 33 + (1 + 34 * (frameBytes s.prime - 0 - 1) + stepsFromAttHi s) + 1 = _
    have hpos : 0 < frameBytes s.prime := by cases s.prime <;> decide
    simp only [stepsLeft, hq]
    omega
  case pLoad =>
    show 4 * (8 - 0) + stepsFromStore s + 1 = _
    simp only [stepsLeft, hq]
    omega
  case xCmd =>
    have hbit := hbyte rfl
    show 4 * (8 - s.bitcnt.toNat) - 1 + stepsFromStore s + 1 = _
    simp only [stepsLeft, hq]
    omega
  case xClkLo =>
    have hbit := hbyte rfl
    show 4 * (8 - s.bitcnt.toNat) - 2 + stepsFromStore s + 1 = _
    simp only [stepsLeft, hq]
    omega
  case xClkHi =>
    have hbit := hbyte rfl
    show 4 * (8 - s.bitcnt.toNat) - 3 + stepsFromStore s + 1 = _
    simp only [stepsLeft, hq]
    omega
  case xHold =>
    have hbit := hbyte rfl
    have hnext := toNat_succ hbit (by decide)
    simp only [phaseNext, hnext]
    split_ifs
    · show 4 * (8 - (s.bitcnt + 1#4).toNat) + stepsFromStore s + 1 = _
      simp only [stepsLeft, hq, hnext]
      omega
    · show stepsFromStore s + 1 = _
      simp only [stepsLeft, hq]
      omega
  case pStore =>
    have hbyte := hframe (by simp)
    have hnext := toNat_succ (lt_of_lt_of_le hbyte (frameBytes_le _)) (by decide)
    simp only [phaseNext, hnext]
    split_ifs
    · show 33 + (1 + 34 * (frameBytes s.prime - (s.bytecnt + 1#3).toNat - 1) + stepsFromAttHi s) + 1 = _
      simp only [stepsLeft, stepsFromStore, hq, hnext]
      omega
    · show stepsFromAttHi s + 1 = _
      simp only [stepsLeft, stepsFromStore, hq]
      omega
  case pAttHi =>
    simp only [phaseNext, attHiNext]
    split_ifs with hp hmore
    · have hcnt := hprime hp
      have hnext := toNat_succ hcnt (by decide)
      simp only [stepsLeft, hq, stepsFromAttHi, hp, if_true, frameBytes, hnext, nPrime] at hcnt hmore ⊢
      omega
    · have hcnt := hprime hp
      have hnext := toNat_succ hcnt (by decide)
      simp only [stepsLeft, hq, stepsFromAttHi, hp, if_true, hnext, nPrime] at hcnt hmore ⊢
      omega
    · simp [stepsLeft, hq, stepsFromAttHi, hp]
  all_goals simp [stepsLeft, phaseNext, hq]

theorem inProgress_iff (s : State) : inProgress s = true ↔ s.phase ≠ .idle ∧ s.phase ≠ .halt := by
  simp [inProgress]

/-- Where a command goes on: DISPATCH with a good configuration, or any phase past it (R124, R126). -/
abbrev GoesOn (s : State) : Prop := inProgress s = true ∧ (s.phase = .dispatch → s.op = .init → configured s = true)

theorem goesOn_phaseNext {s : State} (h : GoesOn s) (hresp : s.phase ≠ .respond) : GoesOn (phaseNext s.phase s) := by
  obtain ⟨hprog, hgood⟩ := h
  obtain ⟨hidle, hhalt⟩ := (inProgress_iff s).mp hprog
  by_cases hq : s.phase = .dispatch
  · rw [hq]
    by_cases hop : s.op = .init
    · obtain ⟨hv, hpin⟩ : variantOf s ≠ .unselected ∧ pinmapValid s.cfg = true := by simpa [configured] using hgood hq hop
      simp only [GoesOn, inProgress_iff, phaseNext, dispatchNext, if_pos hop, if_neg hv, hpin]
      cases variantOf s <;> simp [initPhase]
    · simp only [GoesOn, inProgress_iff, phaseNext, dispatchNext, if_neg hop]
      cases variantOf s <;> simp [pollPhase]
  · have hall : ∀ q ∈ allPhases, q ∉ [Phase.idle, .halt, .respond, .dispatch] → ∀ q' ∈ successors q,
        q' ≠ .idle ∧ q' ≠ .halt ∧ q' ≠ .dispatch := by decide
    obtain ⟨hi, hh, hd⟩ := hall s.phase (mem_allPhases _) (by simp [hidle, hhalt, hresp, hq]) _ (phaseNext_phase_mem _ s)
    exact ⟨(inProgress_iff _).mpr ⟨hi, hh⟩, fun h => absurd h hd⟩

/-- Settles O17: no phase of a command in progress stops, and each counts down by one. -/
theorem everyStepNearsTheResponse : Obligations.EveryStepNearsTheResponse := by
  unfold Obligations.EveryStepNearsTheResponse
  intro s h hrst hprog hgood
  have hdrop : Inv (dropResponse s) := h
  obtain ⟨hidle, hhalt⟩ := (inProgress_iff s).mp hprog
  refine ⟨_, step_of_inv h hrst (commandSeen_of_busy hidle), ?_, fun hresp => ⟨?_, ?_⟩, fun hresp => ⟨?_, ?_⟩⟩
  · exact stepsLeft_phaseNext hdrop rfl hidle hhalt hgood
  · exact (goesOn_phaseNext (s := dropResponse s) ⟨hprog, hgood⟩ hresp).1
  · rw [phaseNext_rspValid rfl, decide_eq_false hresp]
  · rw [hresp]
    rfl
  · rw [phaseNext_rspValid rfl, decide_eq_true hresp]

/-! ### Runs -/

@[simp] theorem runs_zero {s t : State} : Runs 0 s t ↔ s = t := ⟨Host.Outcome.next.inj, congrArg Host.Outcome.next⟩

theorem runs_succ {n : Nat} {s t : State} : Runs (n + 1) s t ↔ ∃ u, step s = .next u ∧ Runs n u t := by
  cases h : step s <;> simp [Runs, Host.Core.run, Host.Check.core_step, h]

theorem runs_add {m n : Nat} {s t : State} : Runs (m + n) s t ↔ ∃ u, Runs m s u ∧ Runs n u t := by
  induction m generalizing s with
  | zero => simp
  | succ m ih =>
    rw [Nat.add_right_comm, runs_succ]
    simp only [ih, runs_succ]
    constructor
    · rintro ⟨v, hv, u, hu, ht⟩
      exact ⟨u, ⟨v, hv, hu⟩, ht⟩
    · rintro ⟨u, ⟨v, hv, hu⟩, ht⟩
      exact ⟨v, hv, u, hu, ht⟩

theorem runs_unique {n : Nat} {s t u : State} (ht : Runs n s t) (hu : Runs n s u) : t = u :=
  Host.Outcome.next.inj (ht.symm.trans hu)

/-- One step of a command in progress: `rsp_valid` drops and the phase runs. -/
def advance (s : State) : State := phaseNext s.phase (dropResponse s)

@[simp] theorem advance_cfg (s : State) : (advance s).cfg = s.cfg := phaseNext_cfg _ _
@[simp] theorem advance_port (s : State) : (advance s).port = s.port := phaseNext_port _ _
@[simp] theorem advance_op (s : State) : (advance s).op = s.op := phaseNext_op _ _
@[simp] theorem advance_arg (s : State) : (advance s).arg = s.arg := phaseNext_arg _ _

/-- A block that runs a command: the invariant, no reset, and the command goes on. -/
structure Running (s : State) : Prop where
  inv : Inv s
  rst : s.port.rst = false
  goesOn : GoesOn s

theorem Running.phase_ne_idle {s : State} (h : Running s) : s.phase ≠ .idle := ((inProgress_iff s).mp h.goesOn.1).1

theorem Running.step_eq {s : State} (h : Running s) : step s = .next (advance s) :=
  step_of_inv h.inv h.rst (commandSeen_of_busy h.phase_ne_idle)

theorem Running.advance {s : State} (h : Running s) (hresp : s.phase ≠ .respond) : Running (advance s) where
  inv := inv_phaseNext (s := dropResponse s) h.inv
  rst := by rw [advance_port, h.rst]
  goesOn := goesOn_phaseNext (s := dropResponse s) h.goesOn hresp

theorem Running.stepsLeft_advance {s : State} (h : Running s) : stepsLeft (Progress.advance s) + 1 = stepsLeft s :=
  stepsLeft_phaseNext (s := dropResponse s) h.inv rfl h.phase_ne_idle ((inProgress_iff s).mp h.goesOn.1).2 h.goesOn.2

/-- A command in progress has at least its RESPOND before it, and only RESPOND is one step from the end. -/
theorem Running.respond_iff {s : State} (h : Running s) : s.phase = .respond ↔ stepsLeft s = 1 := by
  have hleft := h.stepsLeft_advance
  constructor
  · intro hq
    simp [stepsLeft, hq]
  · intro hone
    by_contra hresp
    have hnext := (h.advance hresp).stepsLeft_advance
    omega

/-- The state after so many steps of a command in progress. -/
def after (n : Nat) (s : State) : State := Progress.advance^[n] s

@[simp] theorem after_zero (s : State) : after 0 s = s := rfl

theorem after_succ (n : Nat) (s : State) : after (n + 1) s = Progress.advance (after n s) := Function.iterate_succ_apply' ..

theorem Running.after {s : State} (h : Running s) {n : Nat} (hn : n < stepsLeft s) :
    Running (after n s) ∧ stepsLeft (Progress.after n s) + n = stepsLeft s := by
  induction n with
  | zero => exact ⟨h, rfl⟩
  | succ n ih =>
    obtain ⟨hrun, hleft⟩ := ih (by omega)
    have hresp : (Progress.after n s).phase ≠ .respond := fun hq => by
      have := hrun.respond_iff.mp hq
      omega
    have hnext := hrun.stepsLeft_advance
    rw [after_succ]
    exact ⟨hrun.advance hresp, by omega⟩

theorem Running.runs {s : State} (h : Running s) {n : Nat} (hn : n ≤ stepsLeft s) : Runs n s (Progress.after n s) := by
  induction n with
  | zero => exact runs_zero.mpr rfl
  | succ n ih =>
    rw [runs_add]
    refine ⟨_, ih (by omega), ?_⟩
    rw [runs_succ, after_succ]
    exact ⟨_, (h.after (by omega)).1.step_eq, runs_zero.mpr rfl⟩

@[simp] theorem after_op (n : Nat) (s : State) : (Progress.after n s).op = s.op := by
  induction n with
  | zero => rfl
  | succ n ih => rw [after_succ, advance_op, ih]

@[simp] theorem after_cfg (n : Nat) (s : State) : (Progress.after n s).cfg = s.cfg := by
  induction n with
  | zero => rfl
  | succ n ih => rw [after_succ, advance_cfg, ih]

@[simp] theorem after_arg (n : Nat) (s : State) : (Progress.after n s).arg = s.arg := by
  induction n with
  | zero => rfl
  | succ n ih => rw [after_succ, advance_arg, ih]

theorem Running.stepsLeft_pos {s : State} (h : Running s) : 0 < stepsLeft s := by
  have := h.stepsLeft_advance
  omega

/-- The last step of a command is RESPOND. -/
theorem Running.ends {s : State} (h : Running s) :
    ∃ u, Running u ∧ u.phase = .respond ∧ u = Progress.after (stepsLeft s - 1) s ∧
      Progress.after (stepsLeft s) s = phaseNext .respond (dropResponse u) := by
  have hpos := h.stepsLeft_pos
  obtain ⟨hrun, hleft⟩ := h.after (n := stepsLeft s - 1) (by omega)
  have hresp : (Progress.after (stepsLeft s - 1) s).phase = .respond := hrun.respond_iff.mpr (by omega)
  refine ⟨_, hrun, hresp, rfl, ?_⟩
  conv_lhs => rw [show stepsLeft s = stepsLeft s - 1 + 1 by omega]
  rw [after_succ, Progress.advance, hresp]

theorem running_of_dispatch {s : State} (h : Inv s) (hrst : s.port.rst = false) (hq : s.phase = .dispatch)
    (hgood : s.op = .init → configured s = true) : Running s :=
  ⟨h, hrst, (inProgress_iff s).mpr (by simp [hq]), fun _ => hgood⟩

/-- Settles O18: the count of steps goes down to RESPOND, whose step presents the response. -/
theorem everyAcceptedCommandEnds : Obligations.EveryAcceptedCommandEnds := by
  unfold Obligations.EveryAcceptedCommandEnds
  intro s h hrst hq hgood
  have hrun := running_of_dispatch h hrst hq hgood
  refine ⟨?_, fun n t hpos hn ht => ?_, ?_, fun hop => ?_⟩
  · obtain ⟨u, hu, hresp, hlast, hend⟩ := hrun.ends
    refine ⟨_, hrun.runs le_rfl, ?_, ?_, after_op _ s, ?_⟩
    · rw [hend]
      rfl
    · rw [hend]
      rfl
    · have hop := op_init_iff hu.inv.2.2.1 (by simp [hresp]) (by simp [hresp])
      rw [hend, phaseNext_inited]
      cases hi : u.inited <;> simp [hi, hop]
  · have hrunning := (hrun.after hn).1
    obtain rfl := runs_unique ht (hrun.runs hn.le)
    refine ⟨hrunning.phase_ne_idle, ?_⟩
    obtain ⟨m, rfl⟩ := Nat.exists_eq_succ_of_ne_zero hpos.ne'
    obtain ⟨hm, hleft⟩ := hrun.after (n := m) (by omega)
    have hne : (Progress.after m s).phase ≠ .respond := fun hr => by
      have := hm.respond_iff.mp hr
      omega
    rw [after_succ]
    exact (phaseNext_rspValid rfl).trans (decide_eq_false hne)
  · by_cases hop : s.op = .init
    · rw [stepsLeft_of_init hq hop]
      cases variantOf s <;> simp [initSteps, hop]
    · rw [stepsLeft_of_poll hq hop]
      cases variantOf s <;> simp [pollSteps, hop]
  · rw [stepsLeft_of_poll hq hop]
    cases variantOf s <;> simp [pollSteps]

end Sys2Proof.Proofs.Progress
end

section
/-! The remap functions, bit by bit (R91, R177, R178, R212). -/
namespace Sys2Proof.Proofs.Remap
open Sys2Proof Sys2Proof.Machine

theorem getLsbD_remapNesFn (v : BitVec 12) {k : Nat} (hk : k < 8) : (remapNesFn v).getLsbD k = v.getLsbD k := by
  simp [remapNesFn, hk]

/-- The bits of a mask, by name (R91). -/
theorem getLsbD_maskOf (right left down up start select b a : Bool) :
    ∀ k < 8, (maskOf right left down up start select b a).getLsbD k = [a, b, select, start, up, down, left, right].getD k false := by
  revert right left down up start select b a
  decide

/-- The six buttons that the fold of R178 passes through. -/
theorem getLsbD_remapSnesFn (v : BitVec 12) {k : Nat} (hk : k < 8) (hlo : 2 ≤ k) : (remapSnesFn v).getLsbD k = v.getLsbD k := by
  rw [remapSnesFn, getLsbD_maskOf _ _ _ _ _ _ _ _ k hk]
  interval_cases k <;> rfl

/-- A of R178: direct A, extra A, extra R. -/
theorem getLsbD_remapSnesFn_zero (v : BitVec 12) :
    (remapSnesFn v).getLsbD 0 = (v.getLsbD 0 || v.getLsbD 8 || v.getLsbD 11) :=
  getLsbD_maskOf _ _ _ _ _ _ _ _ 0 (by decide)

/-- B of R178: direct B, extra B, extra L. -/
theorem getLsbD_remapSnesFn_one (v : BitVec 12) :
    (remapSnesFn v).getLsbD 1 = (v.getLsbD 1 || v.getLsbD 9 || v.getLsbD 10) :=
  getLsbD_maskOf _ _ _ _ _ _ _ _ 1 (by decide)

/-- The mask of R212, bit by bit, from the field's bits by their places (R97). -/
theorem getLsbD_remapPsxFn (f : BitVec 16) : ∀ k < 8, (remapPsxFn f).getLsbD k =
    [f.getLsbD 11 || f.getLsbD 9 || f.getLsbD 2 || f.getLsbD 14 || f.getLsbD 13,
      f.getLsbD 10 || f.getLsbD 8 || f.getLsbD 1 || f.getLsbD 15 || f.getLsbD 12,
      f.getLsbD 0, f.getLsbD 3, f.getLsbD 4, f.getLsbD 6, f.getLsbD 7, f.getLsbD 5].getD k false :=
  getLsbD_maskOf _ _ _ _ _ _ _ _

/-- Bit `k` of the field is bit `k` of the fourth byte received, or bit `k - 8` of the fifth (R211). -/
theorem getLsbD_fieldOf (b : Vector Byte 5) {k : Nat} (hk : k < 8) :
    (fieldOf b).getLsbD k = b[3].getLsbD k ∧ (fieldOf b).getLsbD (8 + k) = b[4].getLsbD k := by
  have happ : ∀ j, (fieldOf b).getLsbD j = if j < 8 then b[3].getLsbD j else b[4].getLsbD (j - 8) := fun j =>
    BitVec.getLsbD_append
  rw [happ, happ, if_pos hk, if_neg (by omega), Nat.add_sub_cancel_left]
  exact ⟨rfl, rfl⟩

/-- Two vectors share a set bit exactly when their conjunction is not 0. -/
theorem and_ne_zero_iff {w : Nat} (a b : BitVec w) : a &&& b ≠ 0#w ↔ ∃ k < w, a.getLsbD k = true ∧ b.getLsbD k = true := by
  constructor
  · intro hne
    by_contra hnone
    refine hne (BitVec.eq_of_getLsbD_eq fun k hk => ?_)
    rw [BitVec.getLsbD_and, BitVec.getLsbD_zero, Bool.and_eq_false_iff]
    by_contra hboth
    exact hnone ⟨k, hk, by simpa using hboth⟩
  · rintro ⟨k, -, ha, hb⟩ hzero
    have hbit : (a &&& b).getLsbD k = true := by rw [BitVec.getLsbD_and, ha, hb, Bool.and_true]
    rw [hzero, BitVec.getLsbD_zero] at hbit
    cases hbit

end Sys2Proof.Proofs.Remap
end

section
/-! What the polls share: bits set by samples, one step of a running command, the response (R104, R125, R128 to R130). -/
namespace Sys2Proof.Proofs.Polls
open Sys2Proof Sys2Proof.Machine Sys2Proof.Proofs.Steps Sys2Proof.Proofs.StepRules Sys2Proof.Proofs.Timeline
  Sys2Proof.Proofs.RoleMaps Sys2Proof.Proofs.Invariant Sys2Proof.Proofs.Progress

/-! ### Bits set by samples -/

/-- A low sample sets its bit and no other; a high one sets none (R162, R173, R207). -/
theorem joinsBit_setOnLow {w : Nat} (l : Level) (v : BitVec w) (k : Nat) : JoinsBit v (setOnLow l v k) k (l == .L) := by
  intro j hj
  cases l
  case H => simp [setOnLow, bit]
  case L => simp [setOnLow, bit, hj, eq_comm]

/-- The first `k` samples, and nothing else, are in the bits of `v`. -/
def BitsRead {w : Nat} (v : BitVec w) (l : Nat → Level) (k : Nat) : Prop :=
  ∀ j < w, v.getLsbD j = (decide (j < k) && l j == .L)

theorem bitsRead_zero {w : Nat} (l : Nat → Level) : BitsRead (0#w) l 0 := by simp [BitsRead]

theorem BitsRead.setOnLow {w : Nat} {v : BitVec w} {l : Nat → Level} {k : Nat} (h : BitsRead v l k) {a : Level} (ha : a = l k) :
    BitsRead (setOnLow a v k) l (k + 1) := by
  subst ha
  intro j hj
  rw [joinsBit_setOnLow (l k) v k j hj, h j hj]
  rcases Nat.lt_trichotomy j k with hlt | rfl | hgt
  · simp [hlt, hlt.ne, Nat.lt_succ_of_lt hlt]
  · simp
  · simp [hgt.ne', Nat.not_lt_of_gt hgt, Nat.not_lt.mpr (Nat.succ_le_of_lt hgt)]

theorem BitsRead.bit {w : Nat} {v : BitVec w} {l : Nat → Level} {n k : Nat} (h : BitsRead v l n) (hk : k < n) (hw : k < w) :
    v.getLsbD k = (l k == .L) := by
  simp [h k hw, hk]

theorem BitsRead.unique {w : Nat} {v v' : BitVec w} {l l' : Nat → Level} {n : Nat} (h : BitsRead v l n) (h' : BitsRead v' l' n)
    (hl : ∀ k < n, l k = l' k) : v = v' := by
  apply BitVec.eq_of_getLsbD_eq
  intro k hk
  rw [h k hk, h' k hk]
  by_cases hn : k < n
  · rw [hl k hn]
  · simp [hn]

/-! ### One step of a running command -/

theorem advance_of_phase {u : State} {q : Phase} (hq : u.phase = q) : advance u = phaseNext q (dropResponse u) := by
  rw [advance, hq]

theorem records_advance {u : State} {q : Phase} (hq : u.phase = q) :
    Records u.world (advance u).world (phaseEvents q (dropResponse u)) := by
  rw [advance_of_phase hq]
  exact records_phaseNext q (dropResponse u)

/-- A poll goes from DISPATCH to the first poll phase of the variant (R124, R128). -/
theorem advance_dispatch_poll {s : State} (hq : s.phase = .dispatch) (hop : s.op ≠ .init) :
    advance s = { dropResponse s with phase := pollPhase (variantOf s) } := by
  rw [advance_of_phase hq]
  exact if_neg hop

/-- An INIT that passes the check goes from DISPATCH to the init phase of the variant (R124, R127). -/
theorem advance_dispatch_init {s : State} (hq : s.phase = .dispatch) (hop : s.op = .init) (hgood : configured s = true) :
    advance s = { dropResponse s with phase := initPhase (variantOf s) } := by
  obtain ⟨hv, hpin⟩ : variantOf s ≠ .unselected ∧ pinmapValid s.cfg = true := by simpa [configured] using hgood
  rw [advance_of_phase hq]
  exact (if_pos hop).trans ((if_neg hv).trans (if_neg (by simp [hpin])))

theorem after_add (m n : Nat) (s : State) : after (m + n) s = after m (after n s) := Function.iterate_add_apply ..

theorem variantOf_after (n : Nat) (s : State) : variantOf (after n s) = variantOf s := by rw [variantOf, after_cfg, variantOf]

theorem frameBits_after (n : Nat) (s : State) : frameBits (after n s) = frameBits s := by rw [frameBits, variantOf_after, frameBits]

theorem inv_after {s : State} (h : Running s) {n : Nat} (hn : n ≤ stepsLeft s) : Inv (after n s) := by
  rcases hn.lt_or_eq with hlt | rfl
  · exact (h.after hlt).1.inv
  · obtain ⟨u, hu, hresp, -, hend⟩ := h.ends
    rw [hend, ← hresp]
    exact inv_phaseNext (s := dropResponse u) hu.inv

/-! ### The end of a command -/

/-- Two states of the invariant of one configured block have the same modes. -/
theorem mode_eq_of_inv {s t : State} (hs : Inv s) (ht : Inv t) (hps : pinsConfigured s = true) (hpt : pinsConfigured t = true)
    (hv : variantOf t = variantOf s) : t.mode = s.mode := by
  obtain ⟨hms, -, -⟩ := hs.1.1 hps
  obtain ⟨hmt, -, -⟩ := ht.1.1 hpt
  rw [hmt, hms, hv]

/-- What a command leaves when it answers: the response, and the rest levels of a configured block (R125). -/
structure Answered (s t : State) : Prop where
  runs : Runs (stepsLeft s) s t
  inv : Inv t
  phase : t.phase = .idle
  rspValid : t.rspValid = true
  inited : t.inited = true
  mask_of_read : s.op = .read → rspMask t = some t.mask
  bool_of_ispressed : s.op = .ispressed → rspBool t = some (t.mask &&& s.arg != 0#8)

theorem answered_of_running {s : State} (h : Running s) : Answered s (after (stepsLeft s) s) := by
  obtain ⟨u, hu, hresp, rfl, hend⟩ := h.ends
  have hop := op_init_iff hu.inv.2.2.1 (by simp [hresp]) (by simp [hresp])
  refine ⟨h.runs le_rfl, inv_after h le_rfl, ?_, ?_, ?_, fun hread => ?_, fun hpress => ?_⟩
  · rw [hend]
    rfl
  · rw [hend]
    rfl
  · rw [hend, phaseNext_inited]
    rw [after_op] at hop
    cases hi : (after (stepsLeft s - 1) s).inited
    · simp [hop.mpr hi]
    · simp [hi]
  · rw [rspMask_eq, if_pos (by rw [after_op, hread])]
  · have hbool : (phaseNext .respond (dropResponse (after (stepsLeft s - 1) s))).bool =
        anyPressed (after (stepsLeft s - 1) s).mask s.arg := by
      simp [phaseNext, hpress]
    rw [rspBool_eq, if_pos (by rw [after_op, hpress]), hend, hbool]
    rfl

theorem Answered.pinsConfigured {s t : State} (h : Answered s t) : pinsConfigured t = true := by
  simp [Machine.pinsConfigured, h.phase, h.inited]

end Sys2Proof.Proofs.Polls
end

section
/-! The whole direct poll (R164). -/
namespace Sys2Proof.Proofs.DirectPoll
open Sys2Proof Sys2Proof.Machine Sys2Proof.Proofs.Steps Sys2Proof.Proofs.StepRules Sys2Proof.Proofs.Timeline
  Sys2Proof.Proofs.RoleMaps Sys2Proof.Proofs.Invariant Sys2Proof.Proofs.Progress Sys2Proof.Proofs.Polls

/-- The line of sample `k`. -/
def buttonNo (k : Nat) : Role := .btn (Fin.ofNat 8 k)

/-- The level of sample `k` of the poll dispatched in `s`. -/
def directLevel (s : State) (k : Nat) : Level := levelAt (buttonNo k) (after (2 + k) s)

/-- The poll dispatched in `s` has sampled `k` lines and is in `u`. -/
structure Sampled (s : State) (k : Nat) (u : State) : Prop where
  phase : u.phase = if k < 8 then .gSmp else .gDone
  bitcnt : u.bitcnt.toNat = k
  scr : BitsRead u.scr (directLevel s) k
  records : Records s.world u.world ((List.range k).map fun j => .smp (buttonNo j) (directLevel s j))

/-- G_DONE and RESPOND, with no pin event (R125, R163). -/
theorem after_two_of_gDone {u : State} (hq : u.phase = .gDone) :
    (after 2 u).mask = remapGpioFn u.scr ∧ (after 2 u).world = u.world := by
  have hresp : (advance u).phase = .respond := by rw [advance_of_phase hq]; rfl
  rw [after_succ, after_succ, after_zero, advance_of_phase hresp, advance_of_phase hq]
  exact ⟨rfl, rfl⟩

section
variable {s : State} (hq : s.phase = .dispatch) (hop : s.op ≠ .init) (hv : variantOf s = .gpio)
include hq hop hv

theorem sampled_zero : Sampled s 0 (after 2 s) := by
  have hclear : after 2 s = { dropResponse s with scr := 0#12, bitcnt := 0#4, phase := .gSmp } := by
    rw [after_succ, after_succ, after_zero, advance_dispatch_poll hq hop, hv]
    rfl
  rw [hclear]
  exact ⟨rfl, rfl, bitsRead_zero _, .refl _⟩

theorem sampled_after {k : Nat} (hk : k ≤ 8) : Sampled s k (after (2 + k) s) := by
  induction k with
  | zero => exact sampled_zero hq hop hv
  | succ k ih =>
    obtain ⟨hphase, hbit, hscr, hrec⟩ := ih (by omega)
    have hsmp : (after (2 + k) s).phase = .gSmp := by rw [hphase, if_pos (by omega)]
    have hbtn : buttonOf (after (2 + k) s).bitcnt = buttonNo k := by rw [buttonOf, hbit, buttonNo]
    have hcount : ((after (2 + k) s).bitcnt + 1#4).toNat = k + 1 := by rw [toNat_succ (n := 8) (by omega) (by decide), hbit]
    have hnext := advance_of_phase hsmp
    have hworld := records_advance hsmp
    simp only [phaseNext, phaseEvents, dropResponse_bitcnt, hbtn, hbit, hcount] at hnext hworld
    rw [← Nat.add_assoc, after_succ]
    refine ⟨?_, ?_, ?_, ?_⟩
    · rw [hnext]
    · rw [hnext]
      exact hcount
    · rw [hnext]
      exact hscr.setOnLow rfl
    · rw [List.range_succ, List.map_append]
      exact hrec.append hworld

/-- After the eighth sample the mask is assembled, and the response follows with no pin event (R163, R164). -/
theorem after_direct_poll :
    Records s.world (after 12 s).world ((List.range 8).map fun j => .smp (buttonNo j) (directLevel s j)) ∧
      (after 12 s).mask = remapGpioFn (after 10 s).scr := by
  obtain ⟨hphase, -, -, hrec⟩ := sampled_after hq hop hv (k := 8) le_rfl
  obtain ⟨hmask, hworld⟩ := after_two_of_gDone hphase
  rw [show 12 = 2 + (2 + 8) from rfl, after_add, hmask, hworld]
  exact ⟨hrec, rfl⟩

end

/-- Before sample `k` the environment has answered `k` times. -/
theorem happened_before {s : State} {k : Nat} (h : Sampled s k (after (2 + k) s)) :
    Happened s.world (after (2 + k) s).world ((List.range k).map fun j => .smp (buttonNo j) (directLevel s j)) k := by
  simpa [List.countP_map, Function.comp_def, isSample] using h.records.happened

theorem map_finRange_eight (l : Nat → Level) :
    ((List.finRange 8).map fun i => Event.smp (.btn i) (l i.val)) = (List.range 8).map fun j => .smp (buttonNo j) (l j) := by
  rfl

/-- Settles O36: G_CLEAR, eight samples, G_DONE, RESPOND. -/
theorem directPollReadsTheEightLines : Obligations.DirectPollReadsTheEightLines := by
  unfold Obligations.DirectPollReadsTheEightLines
  intro s h hrst hq hop hv
  have hrun := running_of_dispatch h hrst hq fun hinit => absurd hinit hop
  have hsteps : stepsLeft s = 12 := by rw [stepsLeft_of_poll hq hop, hv, pollSteps]
  obtain ⟨hpc, -, -, -⟩ := dispatched_poll h hq hop
  have hend := answered_of_running hrun
  rw [hsteps] at hend
  obtain ⟨hrec, hmask⟩ := after_direct_poll hq hop hv
  generalize ht : after 12 s = t at hend hrec hmask
  have hsampled := fun i : Fin 8 => sampled_after hq hop hv i.isLt.le
  have hvt : variantOf t = variantOf s := by rw [← ht, variantOf_after]
  refine ⟨t, fun i => directLevel s i.val, hsteps ▸ hend.runs, hend.phase, ?_, fun i a ha => ?_, fun i ha => ?_, fun i => ?_,
    hend.mask_of_read, hend.bool_of_ispressed, mode_eq_of_inv h hend.inv hpc hend.pinsConfigured hvt, ?_⟩
  · rw [map_finRange_eight]
    simpa [List.countP_map, Function.comp_def, isSample] using hrec.happened
  · exact level_of_env (happened_before (hsampled i)) ha
  · have hsmp : (after (2 + i.val) s).phase = .gSmp := by rw [(hsampled i).phase, if_pos i.isLt]
    refine level_of_undriven (happened_before (hsampled i)) ?_ ha
    have hi : buttonNo i.val = .btn i := by simp [buttonNo]
    rw [hi]
    exact mode_of_inv (inv_after hrun (by omega)) (by rw [pinsConfigured_eq, hsmp]; rfl) (by rw [variantOf_after, hv]) (btn_mem_roles i)
  · rw [hmask, DirectGpio.getLsbD_remapGpioFn _ i.isLt]
    exact (sampled_after hq hop hv le_rfl).scr.bit i.isLt (by omega)
  · obtain ⟨-, hout, -⟩ := h.1.1 hpc
    obtain ⟨-, houtt, -⟩ := hend.inv.1.1 hend.pinsConfigured
    rw [hout, houtt, hvt, hv, drivenLines_gpio, drivenLines_gpio]

end Sys2Proof.Proofs.DirectPoll
end

section
/-! The whole shift poll (R179). -/
namespace Sys2Proof.Proofs.ShiftPoll
open Sys2Proof Sys2Proof.Machine Sys2Proof.Proofs.Steps Sys2Proof.Proofs.StepRules Sys2Proof.Proofs.Timeline
  Sys2Proof.Proofs.Remap Sys2Proof.Proofs.Invariant Sys2Proof.Proofs.Progress Sys2Proof.Proofs.Polls

/-- The level of sample `k` of the poll dispatched in `s`. -/
def shiftLevel (s : State) (k : Nat) : Level := levelAt .data (after (3 + 3 * k) s)

/-- The poll dispatched in `s` has read `k` bits of its `n` and is in `u`. -/
structure BitsShifted (s : State) (n k : Nat) (u : State) : Prop where
  phase : u.phase = if k < n then .sSample else .sRemap
  bitcnt : u.bitcnt.toNat = k
  scr : BitsRead u.scr (shiftLevel s) k
  records : Records s.world u.world (shiftPollEvents s.cfg.timing k (shiftLevel s))

theorem holdEvents_of_literals {c : Timing} (h : c.AtLeastLiterals) :
    holdEvents c.tLatch = [.dly c.tLatch] ∧ holdEvents c.tSettle = [.dly c.tSettle] ∧ holdEvents c.tClkLo = [.dly c.tClkLo] ∧
      holdEvents c.tClkHi = [.dly c.tClkHi] ∧ holdEvents c.tAtt = [.dly c.tAtt] ∧ holdEvents c.tBit = [.dly c.tBit] := by
  obtain ⟨hlatch, hsettle, hlo, hhi, hatt, hbit⟩ := h
  exact ⟨holdEvents_of_pos (by omega), holdEvents_of_pos (by omega), holdEvents_of_pos (by omega), holdEvents_of_pos (by omega),
    holdEvents_of_pos (by omega), holdEvents_of_pos (by omega)⟩

theorem shiftPollEvents_succ (c : Timing) (k : Nat) (l : Nat → Level) :
    shiftPollEvents c (k + 1) l = shiftPollEvents c k l ++ shiftBitEvents c (l k) := by
  simp [shiftPollEvents, List.range_succ]

theorem countP_isSample_shiftPollEvents (c : Timing) (k : Nat) (l : Nat → Level) :
    (shiftPollEvents c k l).countP isSample = k := by
  induction k with
  | zero => rfl
  | succ k ih => rw [shiftPollEvents_succ, List.countP_append, ih]; rfl

theorem sum_holds_shiftPollEvents (c : Timing) (k : Nat) (l : Nat → Level) :
    ((shiftPollEvents c k l).map holdOf).sum = c.tLatch + c.tSettle + k * (c.tClkLo + c.tClkHi) := by
  induction k with
  | zero => simp [shiftPollEvents, holdOf]
  | succ k ih =>
    rw [shiftPollEvents_succ, List.map_append, List.sum_append, ih, Nat.succ_mul]
    simp [shiftBitEvents, holdOf]
    omega

/-- One bit of the frame: S_SAMPLE, S_CLK_LO and S_CLK_HI. -/
def shiftBit (u : State) : State := phaseNext .sClkHi (phaseNext .sClkLo (phaseNext .sSample (dropResponse u)))

theorem shiftBit_scr (u : State) : (shiftBit u).scr = setOnLow (levelAt .data u) u.scr u.bitcnt.toNat := rfl

theorem shiftBit_bitcnt (u : State) : (shiftBit u).bitcnt = u.bitcnt + 1#4 := rfl

theorem shiftBit_phase (u : State) :
    (shiftBit u).phase = if (u.bitcnt + 1#4).toNat < frameBits u then .sSample else .sRemap := rfl

theorem after_three_of_sSample {u : State} (hq : u.phase = .sSample) : after 3 u = shiftBit u := by
  have hlo : (advance u).phase = .sClkLo := by rw [advance_of_phase hq]; rfl
  have hhi : (advance (advance u)).phase = .sClkHi := by rw [advance_of_phase hlo]; rfl
  rw [after_succ, after_succ, after_succ, after_zero, advance_of_phase hhi, advance_of_phase hlo, advance_of_phase hq]
  rfl

theorem records_shiftBit (u : State) : Records u.world (shiftBit u).world
    ([.smp .data (levelAt .data u)] ++ (.drv .clock .L :: holdEvents u.cfg.timing.tClkLo) ++
      (.drv .clock .H :: holdEvents u.cfg.timing.tClkHi)) :=
  ((records_phaseNext .sSample (dropResponse u)).append (records_phaseNext .sClkLo _)).append (records_phaseNext .sClkHi _)

/-- S_REMAP and RESPOND, with no pin event (R125, R176). -/
theorem after_two_of_sRemap {u : State} (hq : u.phase = .sRemap) :
    (after 2 u).mask = (if variantOf u = .nes then remapNesFn u.scr else remapSnesFn u.scr) ∧ (after 2 u).world = u.world := by
  have hresp : (advance u).phase = .respond := by rw [advance_of_phase hq]; rfl
  rw [after_succ, after_succ, after_zero, advance_of_phase hresp, advance_of_phase hq]
  exact ⟨rfl, rfl⟩

section
variable {s : State} (hq : s.phase = .dispatch) (hop : s.op ≠ .init) (hv : variantOf s = .nes ∨ variantOf s = .snes)
  (hlit : s.cfg.timing.AtLeastLiterals)
include hq hop hv hlit

theorem bitsShifted_zero : BitsShifted s (frameBits s) 0 (after 3 s) := by
  have hpoll : pollPhase (variantOf s) = .sLatchHi := by rcases hv with hv | hv <;> rw [hv] <;> rfl
  have hone : after 1 s = { dropResponse s with phase := .sLatchHi } := by
    rw [after_succ, after_zero, advance_dispatch_poll hq hop, hpoll]
  have hhi : (after 1 s).phase = .sLatchHi := by rw [hone]
  have hlo : (after 2 s).phase = .sLatchLo := by
    rw [after_succ, advance_of_phase hhi]
    rfl
  have hthree : after 3 s = phaseNext .sLatchLo (dropResponse (phaseNext .sLatchHi (dropResponse (after 1 s)))) := by
    rw [after_succ, advance_of_phase hlo, after_succ, advance_of_phase hhi]
  obtain ⟨hlatch, hsettle, -, -, -, -⟩ := holdEvents_of_literals hlit
  have hrec := (records_advance hhi).append (records_advance hlo)
  simp only [phaseEvents, dropResponse_cfg, advance_cfg, after_cfg, hlatch, hsettle] at hrec
  have hworld : (after 1 s).world = s.world := by rw [hone]; rfl
  have hpos : 0 < frameBits s := by unfold frameBits; split_ifs <;> omega
  refine ⟨?_, ?_, ?_, hworld ▸ hrec⟩
  · rw [hthree, if_pos hpos]
    rfl
  · rw [hthree]
    rfl
  · rw [hthree]
    exact bitsRead_zero _

theorem bitsShifted_after {k : Nat} (hk : k ≤ frameBits s) : BitsShifted s (frameBits s) k (after (3 + 3 * k) s) := by
  induction k with
  | zero => exact bitsShifted_zero hq hop hv hlit
  | succ k ih =>
    obtain ⟨hphase, hbit, hscr, hrec⟩ := ih (by omega)
    rw [if_pos (by omega)] at hphase
    have hbound := frameBits_le s
    have hcount : ((after (3 + 3 * k) s).bitcnt + 1#4).toNat = k + 1 := by rw [toNat_succ (n := 12) (by omega) (by decide), hbit]
    obtain ⟨-, -, hlo, hhi, -, -⟩ := holdEvents_of_literals hlit
    have hrec' := records_shiftBit (after (3 + 3 * k) s)
    rw [after_cfg, hlo, hhi] at hrec'
    rw [show 3 + 3 * (k + 1) = 3 + (3 + 3 * k) by omega, after_add, after_three_of_sSample hphase]
    refine ⟨by rw [shiftBit_phase, hcount, frameBits_after], by rw [shiftBit_bitcnt, hcount], ?_, ?_⟩
    · rw [shiftBit_scr, hbit]
      exact hscr.setOnLow rfl
    · rw [shiftPollEvents_succ]
      exact hrec.append hrec'

/-- After the last bit the mask is assembled, and the response follows with no pin event (R176). -/
theorem after_shift_poll : ∃ v : BitVec 12, BitsRead v (shiftLevel s) (frameBits s) ∧
    (after (5 + 3 * frameBits s) s).mask = (if variantOf s = .nes then remapNesFn v else remapSnesFn v) ∧
    Records s.world (after (5 + 3 * frameBits s) s).world (shiftPollEvents s.cfg.timing (frameBits s) (shiftLevel s)) := by
  obtain ⟨hphase, -, hscr, hrec⟩ := bitsShifted_after hq hop hv hlit le_rfl
  rw [if_neg (Nat.lt_irrefl _)] at hphase
  obtain ⟨hmask, hworld⟩ := after_two_of_sRemap hphase
  rw [show 5 + 3 * frameBits s = 2 + (3 + 3 * frameBits s) by omega, after_add, hmask, hworld, variantOf_after]
  exact ⟨_, hscr, rfl, hrec⟩

/-- Sample `k` of the poll is the environment's answer at its place (R74). -/
theorem shiftLevel_of_env {k : Nat} (hk : k ≤ frameBits s) {a : Level} (ha : s.world.env[k]? = some (some a)) : shiftLevel s k = a := by
  have hbefore := (bitsShifted_after hq hop hv hlit hk).records.happened
  rw [countP_isSample_shiftPollEvents] at hbefore
  exact level_of_env hbefore ha

end

/-- Settles O45: the latch pulse, `N` bits of three steps, the remap and the response. -/
theorem shiftPollReadsTheFrame : Obligations.ShiftPollReadsTheFrame := by
  unfold Obligations.ShiftPollReadsTheFrame
  intro s n h hrst hq hop hlit hn
  have hv : variantOf s = .nes ∨ variantOf s = .snes := hn.imp And.left And.left
  obtain rfl : n = frameBits s := by rcases hn with ⟨hv, rfl⟩ | ⟨hv, rfl⟩ <;> simp [frameBits, hv]
  have hrun := running_of_dispatch h hrst hq fun hinit => absurd hinit hop
  have hsteps : stepsLeft s = 5 + 3 * frameBits s := by
    rw [stepsLeft_of_poll hq hop]
    rcases hn with ⟨hv, hn⟩ | ⟨hv, hn⟩ <;> rw [hv, hn, pollSteps]
  obtain ⟨hpc, -, -, -⟩ := dispatched_poll h hq hop
  have hend := answered_of_running hrun
  rw [hsteps] at hend
  obtain ⟨v, hbits, hmask, hrec⟩ := after_shift_poll hq hop hv hlit
  generalize ht : after (5 + 3 * frameBits s) s = t at hend hmask hrec
  have hvt : variantOf t = variantOf s := by rw [← ht, variantOf_after]
  obtain ⟨-, hout, -⟩ := hend.inv.1.1 hend.pinsConfigured
  have hlasts := hrec.lasts
  refine ⟨t, shiftLevel s, hsteps ▸ hend.runs, hend.phase, ?_, fun k hk a ha => ?_, fun hn8 k hk => ?_, fun hn12 => ?_,
    hend.mask_of_read, hend.bool_of_ispressed, mode_eq_of_inv h hend.inv hpc hend.pinsConfigured hvt, ?_, ?_, ?_⟩
  · simpa [countP_isSample_shiftPollEvents] using hrec.happened
  · exact shiftLevel_of_env hq hop hv hlit hk.le ha
  · have hnes : variantOf s = .nes := by
      by_contra hne
      simp [frameBits, hne] at hn8
    rw [hmask, if_pos hnes, getLsbD_remapNesFn v hk]
    exact hbits.bit (by omega) (by omega)
  · have hne : variantOf s ≠ .nes := fun hnes => by simp [frameBits, hnes] at hn12
    have hbit : ∀ k < 12, v.getLsbD k = (shiftLevel s k == .L) := fun k hk => hbits.bit (by omega) hk
    rw [hmask, if_neg hne]
    refine ⟨fun k hk hlo => ?_, ?_, ?_⟩
    · rw [getLsbD_remapSnesFn v hk hlo, hbit k (by omega)]
    · rw [getLsbD_remapSnesFn_zero, hbit 0 (by omega), hbit 8 (by omega), hbit 11 (by omega)]
    · rw [getLsbD_remapSnesFn_one, hbit 1 (by omega), hbit 9 (by omega), hbit 10 (by omega)]
  · rw [hout, hvt, hend.phase]
    rcases hv with hv | hv <;> rw [hv] <;> simp [drivenLines, latchLevel]
  · rw [hout, hvt, hend.phase]
    rcases hv with hv | hv <;> rw [hv] <;> simp [drivenLines, clockLevel]
  · rw [sum_holds_shiftPollEvents] at hlasts
    obtain ⟨hlatch, hsettle, hlo, hhi, -, -⟩ := hlit
    have hclk : frameBits s * 12 ≤ frameBits s * (s.cfg.timing.tClkLo + s.cfg.timing.tClkHi) := Nat.mul_le_mul_left _ (by omega)
    omega

end Sys2Proof.Proofs.ShiftPoll
end

section
/-! The byte transfer, bit by bit, and its refinement by the bit phases (R205 to R208, R213). -/
namespace Sys2Proof.Proofs.Transfer
open Sys2Proof Sys2Proof.Machine Sys2Proof.Proofs.Steps Sys2Proof.Proofs.StepRules Sys2Proof.Proofs.Timeline
  Sys2Proof.Proofs.RoleMaps Sys2Proof.Proofs.Progress Sys2Proof.Proofs.Polls

/-! ### One bit time -/

/-- The level a bit time samples. -/
def bitSample (a : State) : Level := edgeLevel (lowerClk (sendBit a))

/-- The pin events of a bit time that sends `b` and samples `l` (R213). -/
def bitEvents (c : Timing) (b : Bool) (l : Level) : List Event :=
  [.drv .cmd (lvl b), .drv .clk .L] ++ holdEvents c.tXclkLo ++ [.drv .clk .H, .smp .dat l] ++ holdEvents c.tBit

theorem records_to_sample (a : State) : Records a.world ((lowerClk (sendBit a)).world.emit (.drv .clk .H))
    (.drv .cmd (lvl (a.tx.getLsbD a.bitcnt.toNat)) :: .drv .clk .L :: holdEvents a.cfg.timing.tXclkLo ++ [.drv .clk .H]) :=
  ((((Records.refl a.world).drv _ _).drv _ _).delay _).drv _ _

theorem records_bitNext (a : State) : Records a.world (bitNext a).world
    (bitEvents a.cfg.timing (a.tx.getLsbD a.bitcnt.toNat) (bitSample a)) := by
  have h := ((records_to_sample a).sampled .dat (bitSample a)).delay a.cfg.timing.tBit
  simp only [bitEvents, List.cons_append, List.nil_append, List.append_assoc] at h ⊢
  exact h

theorem bitNext_bitcnt (a : State) : (bitNext a).bitcnt = a.bitcnt + 1#4 := rfl

theorem bitNext_rx (a : State) : (bitNext a).rx = setOnLow (bitSample a) a.rx a.bitcnt.toNat := rfl

theorem bitNext_outlvl (a : State) :
    (bitNext a).outlvl = (a.outlvl.put .cmd (some (lvl (a.tx.getLsbD a.bitcnt.toNat)))).put .clk (some .H) :=
  put_put _ _ _ _

/-- A bit time writes the received bits, the counter, the two lines, and time. -/
theorem bitNext_frame (a : State) :
    bitNext a = { a with rx := (bitNext a).rx, bitcnt := (bitNext a).bitcnt, outlvl := (bitNext a).outlvl, world := (bitNext a).world } := rfl

/-! ### Bit times from the start of a byte -/

/-- The level of sample `k` of a transfer that starts in `a`. -/
def bitLevel (a : State) (k : Nat) : Level := bitSample (bitNext^[k] a)

theorem iterate_bitNext_frame (n : Nat) (a : State) :
    bitNext^[n] a = { a with
      rx := (bitNext^[n] a).rx, bitcnt := (bitNext^[n] a).bitcnt, outlvl := (bitNext^[n] a).outlvl, world := (bitNext^[n] a).world } := by
  induction n with
  | zero => rfl
  | succ n ih =>
    rw [Function.iterate_succ_apply', bitNext_frame, ih]

@[simp] theorem iterate_bitNext_tx (n : Nat) (a : State) : (bitNext^[n] a).tx = a.tx := by rw [iterate_bitNext_frame]

section
variable {a : State} (hzero : a.bitcnt = 0#4)
include hzero

theorem iterate_bitNext_bitcnt (n : Nat) : (bitNext^[n] a).bitcnt = BitVec.ofNat 4 n := by
  induction n with
  | zero => exact hzero
  | succ n ih =>
    rw [Function.iterate_succ_apply', bitNext_bitcnt, ih]
    simp [BitVec.ofNat_add]

theorem iterate_bitNext_toNat {n : Nat} (hn : n ≤ 8) : (bitNext^[n] a).bitcnt.toNat = n := by
  rw [iterate_bitNext_bitcnt hzero, BitVec.toNat_ofNat, Nat.mod_eq_of_lt (by omega)]

theorem bitsRead_iterate (hrx : a.rx = 0#8) {n : Nat} (hn : n ≤ 8) : BitsRead (bitNext^[n] a).rx (bitLevel a) n := by
  induction n with
  | zero =>
    rw [Function.iterate_zero_apply, hrx]
    exact bitsRead_zero _
  | succ n ih =>
    rw [Function.iterate_succ_apply', bitNext_rx, iterate_bitNext_toNat hzero (by omega)]
    exact (ih (by omega)).setOnLow rfl

theorem iterate_bitNext_outlvl {n : Nat} (hn : n < 8) :
    (bitNext^[n + 1] a).outlvl = (a.outlvl.put .cmd (some (lvl (a.tx.getLsbD n)))).put .clk (some .H) := by
  rw [Function.iterate_succ_apply', bitNext_outlvl, iterate_bitNext_tx, iterate_bitNext_toNat hzero hn.le]
  cases n with
  | zero => rfl
  | succ n =>
    rw [iterate_bitNext_outlvl (by omega), put_comm _ (show Role.clk ≠ Role.cmd by decide), put_put, put_put]

theorem records_iterate {n : Nat} (hn : n ≤ 8) : Records a.world (bitNext^[n] a).world
    ((List.range n).flatMap fun k => bitEvents a.cfg.timing (a.tx.getLsbD k) (bitLevel a k)) := by
  induction n with
  | zero => exact .refl _
  | succ n ih =>
    have h := records_bitNext (bitNext^[n] a)
    rw [iterate_bitNext_tx, iterate_bitNext_toNat hzero (by omega), iterate_bitNext_cfg, ← Function.iterate_succ_apply' bitNext] at h
    rw [List.range_succ, List.flatMap_append, List.flatMap_singleton]
    exact (ih (by omega)).append h

end

theorem countP_isSample_bitEvents (c : Timing) (b : Bool) (l : Level) : (bitEvents c b l).countP isSample = 1 := by
  simp [bitEvents, isSample, List.countP_cons]

theorem sum_holds_bitEvents (c : Timing) (b : Bool) (l : Level) : ((bitEvents c b l).map holdOf).sum = c.tXclkLo + c.tBit := by
  simp [bitEvents, holdOf]

/-- The events of the first `n` bits of a transfer. -/
abbrev bitsEvents (c : Timing) (b : Byte) (l : Nat → Level) (n : Nat) : List Event :=
  (List.range n).flatMap fun k => bitEvents c (b.getLsbD k) (l k)

theorem countP_isSample_bitsEvents (c : Timing) (b : Byte) (l : Nat → Level) (n : Nat) :
    (bitsEvents c b l n).countP isSample = n := by
  simp [bitsEvents, List.countP_flatMap, Function.comp_def, countP_isSample_bitEvents]

theorem sum_holds_bitsEvents (c : Timing) (b : Byte) (l : Nat → Level) (n : Nat) :
    ((bitsEvents c b l n).map holdOf).sum = n * (c.tXclkLo + c.tBit) := by
  induction n with
  | zero => simp [bitsEvents]
  | succ n ih =>
    rw [bitsEvents, List.range_succ, List.flatMap_append, List.flatMap_singleton, List.map_append, List.sum_append, ih,
      sum_holds_bitEvents, Nat.succ_mul]

theorem xferEvents_eq {c : Timing} (hbit : 0 < c.tBit) (b : Byte) (l : Nat → Level) : xferEvents c b l = bitsEvents c b l 8 := by
  simp [xferEvents, bitsEvents, bitEvents, holdEvents_of_pos hbit]

/-- Sample `k` of a transfer is the environment's answer at its place (R74). -/
theorem bitLevel_of_env {w : World} {evs : List Event} {a : State} (hzero : a.bitcnt = 0#4) (hrec : Records w a.world evs) {k : Nat}
    (hk : k < 8) {l : Level} (hl : w.env[evs.countP isSample + k]? = some (some l)) : bitLevel a k = l := by
  have h := (hrec.append (records_iterate hzero hk.le)).append (records_to_sample (bitNext^[k] a))
  refine level_of_env (u := { lowerClk (sendBit (bitNext^[k] a)) with world := _ }) h.happened ?_
  rw [List.countP_append, List.countP_append, countP_isSample_bitsEvents]
  simpa [isSample] using hl

/-! ### The transfer as an operation -/

theorem bitTime_of_linesOk {a : State} (h : LinesOk a) (hbit : a.bitcnt.toNat < 8) : bitTime a = .next (bitNext a) := by
  obtain ⟨hcmd, hclk, hdat⟩ := h
  have hsend := bitCmd_eq_next.mpr ⟨⟨hbit, hcmd⟩, rfl⟩
  have hlower := (bitClkLo_eq_next (s := sendBit a)).mpr ⟨hclk, rfl⟩
  have hraise := (bitClkHi_eq_next (s := lowerClk (sendBit a))).mpr ⟨⟨hbit, hclk, hdat⟩, rfl⟩
  rw [bitTime, hsend, andThen_next, hlower, andThen_next, hraise, andThen_next, bitHold_eq, bitNext]

theorem linesOk_of_bitTime {a t : State} (h : bitTime a = .next t) : LinesOk a := by
  simp only [bitTime, andThen_eq_next] at h
  obtain ⟨c, ⟨b, ⟨a', ha, hb⟩, hc⟩, -⟩ := h
  obtain ⟨⟨-, hcmd⟩, rfl⟩ := bitCmd_eq_next.mp ha
  obtain ⟨hclk, rfl⟩ := bitClkLo_eq_next.mp hb
  obtain ⟨⟨-, -, hdat⟩, rfl⟩ := bitClkHi_eq_next.mp hc
  exact ⟨hcmd, hclk, hdat⟩

theorem bitTimes_of_linesOk {n : Nat} {a : State} (h : LinesOk a) (hn : a.bitcnt.toNat + n ≤ 8) :
    bitTimes n a = .next (bitNext^[n] a) := by
  induction n generalizing a with
  | zero => rfl
  | succ n ih =>
    have hcount : (bitNext a).bitcnt.toNat = a.bitcnt.toNat + 1 := by
      rw [bitNext_bitcnt]
      exact toNat_succ (n := 8) (by omega) (by decide)
    have hleft : (bitNext a).bitcnt.toNat + n ≤ 8 := by rw [hcount]; omega
    rw [bitTimes, bitTime_of_linesOk h (by omega), andThen_next, Function.iterate_succ_apply]
    exact ih h hleft

/-- The transfer goes on exactly where the three lines are ready, and does eight bit times (R213). -/
theorem transfer_eq_next {b : Byte} {s t : State} : transfer b s = .next t ↔ LinesOk s ∧ t = bitNext^[8] (loadByte b s) := by
  refine eq_next_iff (fun h => bitTimes_of_linesOk (a := loadByte b s) h le_rfl) fun ht => ?_
  obtain ⟨u, hu, -⟩ := andThen_eq_next.mp (show andThen (bitTime (loadByte b s)) (bitTimes 7) = .next t from ht)
  exact linesOk_of_bitTime (a := loadByte b s) hu

theorem linesOk_of_modes {s : State} (hv : variantOf s = .psx) (hcmd : s.mode.get .cmd = .out) (hclk : s.mode.get .clk = .out)
    (hdat : s.mode.get .dat = .inp) : LinesOk s := by
  have hrole : ∀ p ∈ Variant.psx.roles, hasRole s p = true := fun p hp => hasRole_of_variant hv hp
  exact ⟨⟨hrole _ (by decide), hcmd⟩, ⟨hrole _ (by decide), hclk⟩, hrole _ (by decide), by simp [canSample, hdat]⟩

/-- Settles O56: each of the four is a transfer, and a transfer is eight bit times. -/
theorem byteTransferIsFullDuplex : Obligations.ByteTransferIsFullDuplex := by
  unfold Obligations.ByteTransferIsFullDuplex
  intro s i b hi hv hcmd hclk hdat hlit
  have hexec : exec i s = transfer b s := by
    simp only [List.mem_cons, Prod.mk.injEq, List.not_mem_nil, or_false] at hi
    rcases hi with ⟨rfl, rfl⟩ | ⟨rfl, rfl⟩ | ⟨rfl, rfl⟩ | ⟨rfl, rfl⟩ <;> rfl
  obtain ⟨-, -, -, -, -, hbit⟩ := hlit
  have hrun := (transfer_eq_next (b := b)).mpr ⟨linesOk_of_modes hv hcmd hclk hdat, rfl⟩
  have hrec : Records s.world _ (bitsEvents s.cfg.timing b (bitLevel (loadByte b s)) 8) :=
    records_iterate (a := loadByte b s) rfl le_rfl
  have hlasts := hrec.lasts
  rw [sum_holds_bitsEvents] at hlasts
  refine ⟨bitLevel (loadByte b s), (bitNext^[8] (loadByte b s)).rx, (bitNext^[8] (loadByte b s)).world, ?_, fun k hk => ?_, ?_,
    fun k hk a ha => ?_, ?_⟩
  · rw [hexec, hrun, iterate_bitNext_frame, iterate_bitNext_outlvl rfl (by decide), iterate_bitNext_bitcnt rfl]
    rfl
  · exact (bitsRead_iterate (a := loadByte b s) rfl rfl le_rfl).bit hk hk
  · rw [xferEvents_eq (by omega)]
    simpa only [countP_isSample_bitsEvents] using hrec.happened
  · exact bitLevel_of_env (a := loadByte b s) rfl (.refl s.world) hk (by simpa using ha)
  · omega

/-! ### The bit phases -/

/-- The state `a` in the phase `q`. -/
def atPhase (q : Phase) (a : State) : State := { a with phase := q }

theorem dropResponse_of_rspValid {a : State} (h : a.rspValid = false) : dropResponse a = a := by
  rw [dropResponse, ← h]

theorem iterate_bitNext_rspValid (n : Nat) (a : State) : (bitNext^[n] a).rspValid = a.rspValid := by rw [iterate_bitNext_frame]

/-- A phase of a running command that has been entered. -/
theorem advance_atPhase {q : Phase} {a : State} (h : a.rspValid = false) : advance (atPhase q a) = phaseNext q (atPhase q a) :=
  (advance_of_phase rfl).trans (congrArg (phaseNext q) (dropResponse_of_rspValid (a := atPhase q a) h))

/-- The four bit phases are one bit time (R205 to R208, R213). -/
theorem after_four_of_xCmd {a : State} (h : a.rspValid = false) :
    after 4 (atPhase .xCmd a) = atPhase (if (a.bitcnt + 1#4).toNat < 8 then .xCmd else .pStore) (bitNext a) := by
  have hsend : advance (atPhase .xCmd a) = atPhase .xClkLo (sendBit a) := advance_atPhase h
  have hlower : advance (atPhase .xClkLo (sendBit a)) = atPhase .xClkHi (lowerClk (sendBit a)) := advance_atPhase h
  have hraise : advance (atPhase .xClkHi (lowerClk (sendBit a))) = atPhase .xHold (raiseClk (lowerClk (sendBit a))) :=
    advance_atPhase h
  rw [after_succ, after_succ, after_succ, after_succ, after_zero, hsend, hlower, hraise]
  exact advance_atPhase h

theorem after_bits {a : State} (h : a.rspValid = false) (hzero : a.bitcnt = 0#4) {n : Nat} (hn : n ≤ 8) :
    after (4 * n) (atPhase .xCmd a) = atPhase (if n < 8 then .xCmd else .pStore) (bitNext^[n] a) := by
  induction n with
  | zero => rfl
  | succ n ih =>
    have hcount : ((bitNext^[n] a).bitcnt + 1#4).toNat = n + 1 := by
      rw [← bitNext_bitcnt, ← Function.iterate_succ_apply' bitNext, iterate_bitNext_toNat hzero hn]
    rw [show 4 * (n + 1) = 4 + 4 * n by omega, after_add, ih (by omega), if_pos (by omega),
      after_four_of_xCmd ((iterate_bitNext_rspValid n a).trans h), hcount, ← Function.iterate_succ_apply' bitNext]

theorem advance_pLoad {s : State} (hq : s.phase = .pLoad) {b : Byte} (hb : txByte s = some b) :
    advance s = atPhase .xCmd (loadByte b (dropResponse s)) := by
  rw [advance_of_phase hq]
  show ({ loadByte ((txByte s).getD 0#8) (dropResponse s) with phase := .xCmd } : State) = _
  rw [hb]
  rfl

/-- From P_LOAD to P_STORE: the transfer of the byte P_LOAD picks (R204 to R208). -/
theorem after_byte {s : State} (hq : s.phase = .pLoad) {b : Byte} (hb : txByte s = some b) :
    after 33 s = atPhase .pStore (bitNext^[8] (loadByte b (dropResponse s))) := by
  rw [show 33 = 4 * 8 + 1 by omega, after_add]
  show after (4 * 8) (advance s) = _
  rw [advance_pLoad hq hb]
  exact after_bits rfl rfl le_rfl

/-- A step of a phase of a running command that has been entered. -/
theorem step_atPhase {q : Phase} {a v : State} (h : a.rspValid = false) (hrst : a.port.rst = false) (hbusy : q ≠ .idle) :
    step (atPhase q a) = .next v ↔ PhaseOk q (atPhase q a) ∧ v = phaseNext q (atPhase q a) := by
  have hquiet : commandSeen (atPhase q a) = false := commandSeen_of_busy hbusy
  have hstep : step (atPhase q a) = exec (phaseInstr q) (dropResponse (atPhase q a)) := by
    simp only [step, fetch, hquiet]
    exact if_neg (by simp [atPhase, hrst])
  rw [hstep, dropResponse_of_rspValid (a := atPhase q a) h, exec_phase_eq_next fun hq => absurd hq hbusy]

/-- The four bit phases go on exactly where the three lines are ready. -/
theorem runs_bit_iff {a v : State} (h : a.rspValid = false) (hrst : a.port.rst = false) (hbit : a.bitcnt.toNat < 8) :
    Runs 4 (atPhase .xCmd a) v ↔ LinesOk a ∧ v = after 4 (atPhase .xCmd a) := by
  have hsend := fun u => step_atPhase (q := .xCmd) (v := u) h hrst (by decide)
  have hlower := fun u => step_atPhase (q := .xClkLo) (a := sendBit a) (v := u) h hrst (by decide)
  have hraise := fun u => step_atPhase (q := .xClkHi) (a := lowerClk (sendBit a)) (v := u) h hrst (by decide)
  have hhold := fun u => step_atPhase (q := .xHold) (a := raiseClk (lowerClk (sendBit a))) (v := u) h hrst (by decide)
  rw [after_four_of_xCmd h]
  constructor
  · intro hrun
    obtain ⟨u, hu, hrun⟩ := runs_succ.mp hrun
    obtain ⟨⟨-, hcmd⟩, rfl⟩ := (hsend u).mp hu
    obtain ⟨u, hu, hrun⟩ := runs_succ.mp hrun
    obtain ⟨hclk, rfl⟩ := (hlower u).mp hu
    obtain ⟨u, hu, hrun⟩ := runs_succ.mp hrun
    obtain ⟨⟨-, -, hdat⟩, rfl⟩ := (hraise u).mp hu
    obtain ⟨u, hu, hrun⟩ := runs_succ.mp hrun
    obtain ⟨-, rfl⟩ := (hhold u).mp hu
    exact ⟨⟨hcmd, hclk, hdat⟩, (runs_zero.mp hrun).symm⟩
  · rintro ⟨⟨hcmd, hclk, hdat⟩, rfl⟩
    exact runs_succ.mpr ⟨_, (hsend _).mpr ⟨⟨hbit, hcmd⟩, rfl⟩, runs_succ.mpr ⟨_, (hlower _).mpr ⟨hclk, rfl⟩,
      runs_succ.mpr ⟨_, (hraise _).mpr ⟨⟨hbit, hclk, hdat⟩, rfl⟩, runs_succ.mpr ⟨_, (hhold _).mpr ⟨trivial, rfl⟩, runs_zero.mpr rfl⟩⟩⟩⟩

theorem runs_bits {a : State} (h : a.rspValid = false) (hrst : a.port.rst = false) (hzero : a.bitcnt = 0#4) (hok : LinesOk a)
    {n : Nat} (hn : n ≤ 8) : Runs (4 * n) (atPhase .xCmd a) (after (4 * n) (atPhase .xCmd a)) := by
  induction n with
  | zero => exact runs_zero.mpr rfl
  | succ n ih =>
    have hframe := iterate_bitNext_frame n a
    rw [Nat.mul_succ, runs_add]
    refine ⟨_, ih (by omega), ?_⟩
    rw [Nat.add_comm, after_add, after_bits h hzero (by omega), if_pos (by omega)]
    refine (runs_bit_iff ?_ ?_ ?_).mpr ⟨?_, rfl⟩
    · rw [hframe, h]
    · rw [hframe, hrst]
    · rw [iterate_bitNext_toNat hzero (by omega)]
      omega
    · rw [hframe]
      exact hok

/-- The operation of the byte P_LOAD picks is the transfer of that byte. -/
theorem exec_tx_eq {s : State} {i : Instr} (hi : (s.prime = true ∧ i = Instr.txPrime) ∨
    (s.prime = false ∧ s.bytecnt = 0#3 ∧ i = .txStart) ∨ (s.prime = false ∧ s.bytecnt = 1#3 ∧ i = .txPoll) ∨
    (s.prime = false ∧ 2 ≤ s.bytecnt.toNat ∧ s.bytecnt.toNat ≤ 4 ∧ i = .txPad)) :
    ∃ b, txByte s = some b ∧ ∀ t, exec i t = transfer b t := by
  rcases hi with ⟨hp, rfl⟩ | ⟨hp, hk, rfl⟩ | ⟨hp, hk, rfl⟩ | ⟨hp, hlo, hhi, rfl⟩
  · exact ⟨primeByte, by simp [txByte, hp], fun _ => rfl⟩
  · exact ⟨0x01#8, by simp [txByte, hp, hk, hdr], fun _ => rfl⟩
  · exact ⟨0x42#8, by simp [txByte, hp, hk, hdr], fun _ => rfl⟩
  · refine ⟨0xFF#8, ?_, fun _ => rfl⟩
    simp only [txByte, hp]
    generalize s.bytecnt.toNat = k at hlo hhi
    interval_cases k <;> rfl

/-- Settles O57: P_LOAD loads the byte, and each four bit phases are a bit time; both stop where a line is not ready. -/
theorem phasesRefineTheByteTransfer : Obligations.PhasesRefineTheByteTransfer := by
  unfold Obligations.PhasesRefineTheByteTransfer
  intro s hq hrst i hi
  obtain ⟨b, hb, hexec⟩ := exec_tx_eq hi
  have hstep : ∀ u, step s = .next u ↔ u = atPhase .xCmd (loadByte b (dropResponse s)) := fun u => by
    have hquiet : commandSeen s = false := commandSeen_of_busy (by simp [hq])
    have hrun : step s = exec .pLoad (dropResponse s) := by simp [step, fetch, hrst, hquiet, hq, phaseInstr]
    have hpick : txByte (dropResponse s) = some b := hb
    rw [hrun]
    simp [exec, execPLoad, hpick, atPhase, eq_comm]
  have hruns : LinesOk s → Runs 33 s (atPhase .pStore (bitNext^[8] (loadByte b (dropResponse s)))) := fun hok => by
    refine runs_succ.mpr ⟨_, (hstep _).mpr rfl, ?_⟩
    have hbits := runs_bits (a := loadByte b (dropResponse s)) rfl hrst rfl hok le_rfl
    rwa [after_bits rfl rfl le_rfl] at hbits
  constructor
  · intro t ht
    obtain ⟨hok, rfl⟩ := transfer_eq_next.mp ((hexec _).symm.trans ht)
    exact hruns hok
  · intro u hu
    obtain ⟨v, hv, hrun⟩ := runs_succ.mp hu
    obtain rfl := (hstep v).mp hv
    obtain ⟨w, hw, -⟩ := (runs_add (m := 4) (n := 28)).mp hrun
    obtain ⟨hok, -⟩ := (runs_bit_iff (a := loadByte b (dropResponse s)) rfl hrst (show (0#4).toNat < 8 by decide)).mp hw
    exact ⟨_, (hexec _).trans (transfer_eq_next.mpr ⟨hok, rfl⟩), runs_unique hu (hruns hok)⟩

end Sys2Proof.Proofs.Transfer
end

section
/-! A serial frame, byte by byte (R202 to R210, R214), and the poll and the priming made of frames. -/
namespace Sys2Proof.Proofs.Frame
open Sys2Proof Sys2Proof.Machine Sys2Proof.Proofs.Steps Sys2Proof.Proofs.StepRules Sys2Proof.Proofs.Timeline
  Sys2Proof.Proofs.RoleMaps Sys2Proof.Proofs.Invariant Sys2Proof.Proofs.Progress Sys2Proof.Proofs.Polls Sys2Proof.Proofs.Transfer

/-! ### The bytes of a frame -/

/-- The bytes a frame sends: a priming frame one, a poll frame the header (R215, R216). -/
def frameOf (prime : Bool) : List Byte := if prime then [primeByte] else hdr

theorem length_frameOf (prime : Bool) : (frameOf prime).length = frameBytes prime := by cases prime <;> rfl

theorem txByte_eq_frameOf {s : State} (h : s.bytecnt.toNat < frameBytes s.prime) :
    txByte s = (frameOf s.prime)[s.bytecnt.toNat]? := by
  unfold txByte frameOf
  cases hp : s.prime
  · rfl
  · have hzero : s.bytecnt.toNat = 0 := by simpa [hp, frameBytes] using h
    simp [hzero]

/-- The events of the bytes of a frame, the samples being numbered through the frame. -/
def bytesEvents (c : Timing) (bs : List Byte) (l : Nat → Level) : List Event :=
  bs.zipIdx.flatMap fun (b, j) => bitsEvents c b (fun k => l (8 * j + k)) 8

theorem bytesEvents_concat (c : Timing) (bs : List Byte) (b : Byte) (l : Nat → Level) :
    bytesEvents c (bs ++ [b]) l = bytesEvents c bs l ++ bitsEvents c b (fun k => l (8 * bs.length + k)) 8 := by
  simp [bytesEvents, List.zipIdx_append]

theorem countP_isSample_bytesEvents (c : Timing) (bs : List Byte) (l : Nat → Level) :
    (bytesEvents c bs l).countP isSample = 8 * bs.length := by
  induction bs using List.reverseRecOn with
  | nil => rfl
  | append_singleton bs b ih =>
    rw [bytesEvents_concat, List.countP_append, ih, countP_isSample_bitsEvents]
    simp
    omega

theorem sum_holds_bytesEvents (c : Timing) (bs : List Byte) (l : Nat → Level) :
    ((bytesEvents c bs l).map holdOf).sum = bs.length * (8 * (c.tXclkLo + c.tBit)) := by
  induction bs using List.reverseRecOn with
  | nil => simp [bytesEvents]
  | append_singleton bs b ih =>
    rw [bytesEvents_concat, List.map_append, List.sum_append, ih, sum_holds_bitsEvents, List.length_append, List.length_singleton,
      Nat.add_mul, Nat.one_mul]

theorem frameEvents_eq {c : Timing} (h : c.AtLeastLiterals) (bs : List Byte) (l : Nat → Level) :
    frameEvents c bs l = holdEvents c.tAtt ++ [.drv .att .L] ++ bytesEvents c bs l ++ [.drv .att .H] := by
  obtain ⟨-, -, -, -, hatt, hbit⟩ := h
  simp [frameEvents, bytesEvents, holdEvents_of_pos (show 0 < c.tAtt by omega), xferEvents_eq (show 0 < c.tBit by omega)]

theorem bitsEvents_congr {c : Timing} {b : Byte} {l l' : Nat → Level} (h : ∀ k < 8, l k = l' k) :
    bitsEvents c b l 8 = bitsEvents c b l' 8 :=
  List.flatMap_congr fun k hk => by rw [h k (List.mem_range.mp hk)]

/-! ### From P_SETTLE to P_ATT_HI -/

/-- The start of the byte that P_LOAD of `v` picks. -/
def byteStart (v : State) : State := loadByte ((txByte v).getD 0#8) (dropResponse v)

/-- The level of sample `m` of the frame whose P_SETTLE is `u`. -/
def frameLevel (u : State) (m : Nat) : Level := bitLevel (byteStart (after (2 + 34 * (m / 8)) u)) (m % 8)

theorem frameLevel_eq (u : State) (j : Nat) {k : Nat} (hk : k < 8) :
    frameLevel u (8 * j + k) = bitLevel (byteStart (after (2 + 34 * j) u)) k := by
  rw [frameLevel, Nat.mul_add_div (by decide), Nat.mul_add_mod, Nat.div_eq_of_lt hk, Nat.mod_eq_of_lt hk, Nat.add_zero]

/-- The frame whose P_SETTLE is `u` has sent `j` bytes and is in `v`. -/
structure BytesSent (u : State) (j : Nat) (v : State) : Prop where
  phase : v.phase = if j < frameBytes u.prime then .pLoad else .pAttHi
  bytecnt : v.bytecnt.toNat = j
  prime : v.prime = u.prime
  framecnt : v.framecnt = u.framecnt
  received : ∀ i (hi : i < 5), i < j → BitsRead v.rxbuf[i] (fun k => frameLevel u (8 * i + k)) 8
  cmd : ∀ i b, j = i + 1 → (frameOf u.prime)[i]? = some b → v.outlvl.get .cmd = some (lvl (b.getLsbD 7))
  records : Records u.world v.world
    (holdEvents u.cfg.timing.tAtt ++ [.drv .att .L] ++ bytesEvents u.cfg.timing ((frameOf u.prime).take j) (frameLevel u))

theorem frameBytes_pos (prime : Bool) : 0 < frameBytes prime := by cases prime <;> decide

theorem bytesSent_zero {u : State} (hq : u.phase = .pSettle) : BytesSent u 0 (after 2 u) := by
  have hatt : (advance u).phase = .pAttLo := by rw [advance_of_phase hq]; rfl
  have htwo : after 2 u = phaseNext .pAttLo (dropResponse (phaseNext .pSettle (dropResponse u))) := by
    rw [after_succ, after_succ, after_zero, advance_of_phase hatt, advance_of_phase hq]
  rw [htwo]
  refine ⟨(if_pos (frameBytes_pos _)).symm, rfl, rfl, rfl, nofun, nofun, ?_⟩
  rw [List.take_zero, bytesEvents, List.zipIdx_nil, List.flatMap_nil, List.append_nil]
  exact (records_phaseNext .pSettle (dropResponse u)).append (records_phaseNext .pAttLo _)

/-- The byte transfer and P_STORE (R204 to R209). -/
def sendByte (a : State) : State := phaseNext .pStore (bitNext^[8] a)

theorem after_sendByte {v : State} (hq : v.phase = .pLoad) {b : Byte} (hb : txByte v = some b) :
    after 34 v = sendByte (loadByte b (dropResponse v)) := by
  rw [after_succ, after_byte hq hb]
  exact advance_atPhase (iterate_bitNext_rspValid 8 _)

section
variable (a : State)

theorem sendByte_phase :
    (sendByte a).phase = if (a.bytecnt + 1#3).toNat < frameBytes a.prime then .pLoad else .pAttHi := by
  rw [sendByte, iterate_bitNext_frame]
  rfl

theorem sendByte_bytecnt : (sendByte a).bytecnt = a.bytecnt + 1#3 := by
  rw [sendByte, iterate_bitNext_frame]
  rfl

theorem sendByte_prime : (sendByte a).prime = a.prime := by
  rw [sendByte, iterate_bitNext_frame]
  rfl

theorem sendByte_framecnt : (sendByte a).framecnt = a.framecnt := by
  rw [sendByte, iterate_bitNext_frame]
  rfl

theorem sendByte_rxbuf : (sendByte a).rxbuf = a.rxbuf.setIfInBounds a.bytecnt.toNat (bitNext^[8] a).rx := by
  rw [sendByte, iterate_bitNext_frame]
  rfl

theorem sendByte_outlvl : (sendByte a).outlvl = (bitNext^[8] a).outlvl := rfl

theorem sendByte_world : (sendByte a).world = (bitNext^[8] a).world := rfl

end

theorem bytesSent_succ {u : State} {j : Nat} (hj : j < frameBytes u.prime) (h : BytesSent u j (after (2 + 34 * j) u)) :
    BytesSent u (j + 1) (after (2 + 34 * (j + 1)) u) := by
  obtain ⟨hphase, hbyte, hprime, hframe, hreceived, -, hrec⟩ := h
  have hfive := frameBytes_le u.prime
  obtain ⟨b, hb⟩ : ∃ b, (frameOf u.prime)[j]? = some b := ⟨_, List.getElem?_eq_getElem (by rw [length_frameOf]; exact hj)⟩
  have htx : txByte (after (2 + 34 * j) u) = some b := by
    rw [txByte_eq_frameOf (by rw [hbyte, hprime]; exact hj), hbyte, hprime, hb]
  have hstart : loadByte b (dropResponse (after (2 + 34 * j) u)) = byteStart (after (2 + 34 * j) u) := by rw [byteStart, htx]; rfl
  have hlevel : ∀ k < 8, bitLevel (byteStart (after (2 + 34 * j) u)) k = frameLevel u (8 * j + k) := fun k hk => (frameLevel_eq u j hk).symm
  rw [if_pos hj] at hphase
  rw [show 2 + 34 * (j + 1) = 34 + (2 + 34 * j) by omega, after_add, after_sendByte hphase htx]
  have hcount : ((after (2 + 34 * j) u).bytecnt + 1#3).toNat = j + 1 := by rw [toNat_succ (n := 5) (by omega) (by decide), hbyte]
  refine ⟨?_, ?_, ?_, ?_, fun i hi hij => ?_, fun i c hi hc => ?_, ?_⟩
  · rw [sendByte_phase, loadByte_bytecnt, dropResponse_bytecnt, hcount, loadByte_prime, dropResponse_prime, hprime]
  · rw [sendByte_bytecnt, loadByte_bytecnt, dropResponse_bytecnt, hcount]
  · rw [sendByte_prime, loadByte_prime, dropResponse_prime, hprime]
  · rw [sendByte_framecnt, loadByte_framecnt, dropResponse_framecnt, hframe]
  · have hread := bitsRead_iterate (a := loadByte b (dropResponse (after (2 + 34 * j) u))) rfl rfl le_rfl
    simp only [sendByte_rxbuf, Vector.getElem_setIfInBounds, loadByte_bytecnt, loadByte_rxbuf, dropResponse_bytecnt,
      dropResponse_rxbuf, hbyte]
    split_ifs with hji
    · subst hji
      rw [hstart] at hread ⊢
      intro k hk
      rw [hread k hk, hlevel k hk]
    · exact hreceived i hi (by omega)
  · obtain rfl : i = j := by omega
    obtain rfl : b = c := Option.some.inj (hb.symm.trans hc)
    rw [sendByte_outlvl, iterate_bitNext_outlvl rfl (by decide), get_put, if_neg (by decide), get_put, if_pos rfl, loadByte_tx]
  · have hlen : ((frameOf u.prime).take j).length = j := by rw [List.length_take, length_frameOf]; omega
    have hbits := records_iterate (a := loadByte b (dropResponse (after (2 + 34 * j) u))) rfl le_rfl
    have hsame := bitsEvents_congr (c := u.cfg.timing) (b := b) hlevel
    rw [List.take_add_one, hb, Option.toList_some, bytesEvents_concat, hlen, ← hsame, ← hstart, ← List.append_assoc]
    rw [sendByte_world]
    simp only [loadByte_world, dropResponse_world, loadByte_tx, loadByte_cfg, dropResponse_cfg, after_cfg] at hbits
    exact hrec.append hbits

theorem bytesSent_after {u : State} (hq : u.phase = .pSettle) {j : Nat} (hj : j ≤ frameBytes u.prime) :
    BytesSent u j (after (2 + 34 * j) u) := by
  induction j with
  | zero => exact bytesSent_zero hq
  | succ j ih => exact bytesSent_succ (by omega) (ih (by omega))

/-- Sample `m` of a frame is the environment's answer at its place (R74). -/
theorem frameLevel_of_env {u : State} (hq : u.phase = .pSettle) {m : Nat} (hm : m < 8 * frameBytes u.prime) {l : Level}
    (hl : u.world.env[m]? = some (some l)) : frameLevel u m = l := by
  obtain ⟨hphase, -, -, -, -, -, hrec⟩ := bytesSent_after hq (j := m / 8) (by omega)
  refine bitLevel_of_env (a := byteStart (after (2 + 34 * (m / 8)) u)) rfl hrec (Nat.mod_lt _ (by decide)) ?_
  have hlen : ((frameOf u.prime).take (m / 8)).length = m / 8 := by rw [List.length_take, length_frameOf]; omega
  rw [List.countP_append, List.countP_append, countP_isSample_holdEvents, countP_isSample_bytesEvents, hlen]
  rw [← hl]
  simp [isSample, Nat.div_add_mod]

/-! ### A whole frame -/

/-- A whole frame: the state after P_ATT_HI (R210). -/
theorem after_frame {u : State} (hq : u.phase = .pSettle) (hlit : u.cfg.timing.AtLeastLiterals) :
    ∃ v, BytesSent u (frameBytes u.prime) v ∧ after (3 + 34 * frameBytes u.prime) u = attHiNext (dropResponse v) ∧
      Records u.world (attHiNext (dropResponse v)).world (frameEvents u.cfg.timing (frameOf u.prime) (frameLevel u)) := by
  have h := bytesSent_after hq (j := frameBytes u.prime) le_rfl
  have hphase := h.phase
  rw [if_neg (Nat.lt_irrefl _)] at hphase
  refine ⟨_, h, ?_, ?_⟩
  · rw [show 3 + 34 * frameBytes u.prime = 2 + 34 * frameBytes u.prime + 1 by omega, after_succ, advance_of_phase hphase]
    rfl
  · have hrec := h.records
    rw [← length_frameOf, List.take_length] at hrec
    rw [frameEvents_eq hlit]
    exact (length_frameOf u.prime ▸ hrec).append (records_phaseNext .pAttHi (dropResponse _))

end Sys2Proof.Proofs.Frame
end

section
/-! The whole serial poll and the whole INIT (R127, R128, R214, R215). -/
namespace Sys2Proof.Proofs.SerialPoll
open Sys2Proof Sys2Proof.Machine Sys2Proof.Proofs.Steps Sys2Proof.Proofs.StepRules Sys2Proof.Proofs.Timeline
  Sys2Proof.Proofs.RoleMaps Sys2Proof.Proofs.Remap Sys2Proof.Proofs.Invariant Sys2Proof.Proofs.Progress Sys2Proof.Proofs.Polls
  Sys2Proof.Proofs.Frame

theorem sum_holds_frameEvents {c : Timing} (h : c.AtLeastLiterals) (bs : List Byte) (l : Nat → Level) :
    2 + 80 * bs.length ≤ ((frameEvents c bs l).map holdOf).sum := by
  have hbytes : bs.length * 80 ≤ bs.length * (8 * (c.tXclkLo + c.tBit)) := Nat.mul_le_mul_left _ (by
    obtain ⟨-, -, -, -, -, hbit⟩ := h
    omega)
  rw [frameEvents_eq h]
  obtain ⟨-, -, -, -, hatt, -⟩ := h
  simp only [List.map_append, List.sum_append, sum_holds_holdEvents, sum_holds_bytesEvents]
  omega

theorem countP_isSample_frameEvents {c : Timing} (h : c.AtLeastLiterals) (bs : List Byte) (l : Nat → Level) :
    (frameEvents c bs l).countP isSample = 8 * bs.length := by
  rw [frameEvents_eq h]
  simp [List.countP_append, countP_isSample_bytesEvents, isSample]

/-! ### The poll -/

/-- After the frame of a poll: the remap and the response (R210, R211). -/
theorem after_two_of_poll_frame {v w : State} (hp : v.prime = false) (hw : w = attHiNext (dropResponse v)) :
    (after 2 w).field = fieldOf v.rxbuf ∧ (after 2 w).mask = remapPsxFn (fieldOf v.rxbuf) ∧ (after 2 w).world = w.world ∧
      (after 2 w).outlvl.get .cmd = v.outlvl.get .cmd := by
  have hframe : attHiNext (dropResponse v) =
      { dropResponse v with outlvl := v.outlvl.put .att (some .H), world := v.world.emit (.drv .att .H), phase := .pRemap } :=
    if_neg (by simp [hp])
  rw [hframe] at hw
  have hremap : w.phase = .pRemap := by rw [hw]
  have hresp : (advance w).phase = .respond := by rw [advance_of_phase hremap]; rfl
  rw [after_succ, after_succ, after_zero, advance_of_phase hresp, advance_of_phase hremap, hw]
  exact ⟨rfl, rfl, rfl, RoleMap.get_put_other _ _ (by decide)⟩

theorem getLsbD_field_of_bytesSent {u v : State} (h : BytesSent u 5 v) {k : Nat} (hk : k < 16) :
    (fieldOf v.rxbuf).getLsbD k = (frameLevel u (24 + k) == .L) := by
  by_cases hlow : k < 8
  · rw [(getLsbD_fieldOf v.rxbuf hlow).1, (h.received 3 (by decide) (by decide)).bit hlow hlow]
  · obtain ⟨j, rfl⟩ : ∃ j, k = 8 + j := ⟨k - 8, by omega⟩
    have hj : j < 8 := by omega
    rw [(getLsbD_fieldOf v.rxbuf hj).2, (h.received 4 (by decide) (by decide)).bit hj hj, ← Nat.add_assoc]

/-- What a serial poll dispatched in `s` leaves (R128, R214). -/
theorem serial_poll {s : State} (hq : s.phase = .dispatch) (hop : s.op ≠ .init) (hv : variantOf s = .psx) (hp : s.prime = false)
    (hlit : s.cfg.timing.AtLeastLiterals) :
    ∃ f : BitVec 16, (∀ k < 16, f.getLsbD k = (frameLevel (after 1 s) (24 + k) == .L)) ∧
      (∀ m < 40, ∀ a, s.world.env[m]? = some (some a) → frameLevel (after 1 s) m = a) ∧
      Records s.world (after 176 s).world (frameEvents s.cfg.timing hdr (frameLevel (after 1 s))) ∧
      (after 176 s).field = f ∧ (after 176 s).mask = remapPsxFn f ∧ (after 176 s).outlvl.get .cmd = some .H := by
  have hone : after 1 s = { dropResponse s with phase := .pSettle } := by
    rw [after_succ, after_zero, advance_dispatch_poll hq hop, hv]
    rfl
  have hsettle : (after 1 s).phase = .pSettle := by rw [hone]
  have hprime : (after 1 s).prime = false := by rw [hone]; exact hp
  have hworld : (after 1 s).world = s.world := by rw [hone]; rfl
  obtain ⟨v, hv, hframe, hrec⟩ := after_frame hsettle (by rw [after_cfg]; exact hlit)
  have hfive : frameBytes (after 1 s).prime = 5 := by rw [hprime]; rfl
  rw [hfive] at hv hframe
  rw [hprime, hworld, after_cfg] at hrec
  obtain ⟨hfield, hmask, hend, hcmd⟩ := after_two_of_poll_frame (hv.prime.trans hprime) hframe
  rw [← hframe, ← hend] at hrec
  rw [show 176 = 2 + (3 + 34 * 5 + 1) from rfl, after_add, after_add]
  refine ⟨fieldOf v.rxbuf, fun k hk => getLsbD_field_of_bytesSent hv hk, fun m hm a ha => ?_, ?_, hfield, hmask, ?_⟩
  · exact frameLevel_of_env hsettle (by rw [hfive]; exact hm) (by rw [hworld]; exact ha)
  · exact hrec
  · rw [hcmd]
    exact hv.cmd 4 0xFF#8 rfl (by rw [hprime]; rfl)

/-- Settles O58: P_SETTLE, a frame of the five header bytes, the remap and the response. -/
theorem serialPollReadsTheField : Obligations.SerialPollReadsTheField := by
  unfold Obligations.SerialPollReadsTheField
  intro s h hrst hq hop hv hlit
  have hrun := running_of_dispatch h hrst hq fun hinit => absurd hinit hop
  have hsteps : stepsLeft s = 176 := by
    rw [stepsLeft_of_poll hq hop, hv]
    rfl
  obtain ⟨hpc, -, -, hprime⟩ := dispatched_poll h hq hop
  have hend := answered_of_running hrun
  rw [hsteps] at hend
  obtain ⟨f, hf, henv, hrec, hfield, hmask, hcmd⟩ := serial_poll hq hop hv hprime hlit
  generalize ht : after 176 s = t at hend hrec hfield hmask hcmd
  have hvt : variantOf t = .psx := by rw [← ht, variantOf_after, hv]
  obtain ⟨-, hout, -⟩ := hend.inv.1.1 hend.pinsConfigured
  rw [hvt, hend.phase] at hout
  have hlasts := le_trans (Nat.add_le_add_left (sum_holds_frameEvents hlit hdr (frameLevel (after 1 s))) _) hrec.lasts
  have hbit := getLsbD_remapPsxFn f
  refine ⟨t, frameLevel (after 1 s), f.getLsbD, hsteps ▸ hend.runs, hend.phase, ?_, henv, fun k hk => ⟨hf k hk, by rw [hfield]⟩, ?_⟩
  · have hhappened := hrec.happened
    rw [countP_isSample_frameEvents hlit] at hhappened
    exact hhappened
  · rw [hmask]
    refine ⟨hbit 0 (by decide), hbit 1 (by decide), hbit 2 (by decide), hbit 3 (by decide), hbit 4 (by decide), hbit 5 (by decide),
      hbit 6 (by decide), hbit 7 (by decide), ?_⟩
    rw [← hmask]
    refine ⟨hend.mask_of_read, hend.bool_of_ispressed, mode_eq_of_inv h hend.inv hpc hend.pinsConfigured (hvt.trans hv.symm), ?_, ?_,
      hcmd, hlasts⟩
    · rw [hout]
      simp [drivenLines, attLevel, Phase.inFrame]
    · rw [hout]
      simp [drivenLines, clkLevel]

/-! ### INIT -/

/-- An INIT in progress is in no phase that writes `MASK` or `FIELD`. -/
theorem not_pollOnly_of_init {u : State} (h : Running u) (hop : u.op = .init) : u.phase.pollOnly = false := by
  obtain ⟨hidle, hhalt⟩ := (inProgress_iff u).mp h.goesOn.1
  obtain ⟨hinit, -, hpoll, -⟩ := h.inv.2.2.1
  by_contra hp
  have hinited := hpoll (by simpa using hp)
  rw [(hinit hidle hhalt).mp hop] at hinited
  cases hinited

theorem mask_field_after {s : State} (h : Running s) (hop : s.op = .init) {n : Nat} (hn : n ≤ stepsLeft s) :
    (after n s).mask = s.mask ∧ (after n s).field = s.field := by
  induction n with
  | zero => exact ⟨rfl, rfl⟩
  | succ n ih =>
    obtain ⟨hmask, hfield⟩ := ih (by omega)
    have hpoll := not_pollOnly_of_init (h.after (n := n) (by omega)).1 ((after_op n s).trans hop)
    have hne : ∀ q, Phase.pollOnly q = true → (after n s).phase ≠ q := by
      rintro q hq rfl
      rw [hpoll] at hq
      cases hq
    rw [after_succ, advance, phaseNext_mask (hne _ rfl) (hne _ rfl) (hne _ rfl), phaseNext_field (hne _ rfl)]
    exact ⟨hmask, hfield⟩

/-- A priming frame: one zero byte, after which the frame is counted (R210, R215). -/
theorem priming_frame {u : State} (hq : u.phase = .pSettle) (hp : u.prime = true) (hlit : u.cfg.timing.AtLeastLiterals) :
    Records u.world (after 37 u).world (frameEvents u.cfg.timing [0x00#8] (frameLevel u)) ∧
      (after 37 u).framecnt = u.framecnt + 1#2 ∧ (after 37 u).outlvl.get .cmd = some .L ∧
      ((u.framecnt + 1#2).toNat < nPrime → (after 37 u).phase = .pSettle ∧ (after 37 u).prime = true) ∧
      (¬ (u.framecnt + 1#2).toNat < nPrime → (after 37 u).phase = .respond ∧ (after 37 u).prime = false) := by
  obtain ⟨v, hv, hframe, hrec⟩ := after_frame hq hlit
  have hone : frameBytes u.prime = 1 := by rw [hp]; rfl
  rw [hone] at hv hframe
  rw [hp] at hrec
  have hcmd : v.outlvl.get .cmd = some .L := hv.cmd 0 0x00#8 rfl (by rw [hp]; rfl)
  have hprime : v.prime = true := hv.prime.trans hp
  rw [show 37 = 3 + 34 * 1 from rfl, hframe]
  refine ⟨hrec, ?_, ?_, fun hmore => ?_, fun hlast => ?_⟩
  · simp only [attHiNext, dropResponse_prime, dropResponse_framecnt, hprime, if_true, hv.framecnt]
    split_ifs <;> rfl
  · rw [← hcmd]
    simp only [attHiNext]
    split_ifs <;> exact RoleMap.get_put_other _ _ (by decide)
  · rw [← hv.framecnt] at hmore
    simp only [attHiNext, dropResponse_prime, dropResponse_framecnt, hprime, if_true, if_pos hmore]
    exact ⟨trivial, trivial⟩
  · rw [← hv.framecnt] at hlast
    simp only [attHiNext, dropResponse_prime, dropResponse_framecnt, hprime, if_true, if_neg hlast]
    exact ⟨trivial, trivial⟩

theorem frameEvents_congr {c : Timing} (h : c.AtLeastLiterals) {b : Byte} {l l' : Nat → Level} (hl : ∀ k < 8, l k = l' k) :
    frameEvents c [b] l = frameEvents c [b] l' := by
  have hone : ∀ l, bytesEvents c [b] l = Transfer.bitsEvents c b l 8 := fun l => by simp [bytesEvents]
  rw [frameEvents_eq h, frameEvents_eq h, hone, hone, bitsEvents_congr hl]

/-- RESPOND leaves the pins, the time and the frame count (R125). -/
theorem advance_respond {u : State} (hq : u.phase = .respond) : (advance u).world = u.world ∧ (advance u).prime = u.prime ∧
    (advance u).framecnt = u.framecnt ∧ (advance u).outlvl = u.outlvl := by
  rw [advance_of_phase hq]
  exact ⟨rfl, rfl, rfl, rfl⟩

/-- The sample levels of the two priming frames, numbered through both. -/
def primingLevel (u₁ u₂ : State) (k : Nat) : Level := if k < 8 then frameLevel u₁ k else frameLevel u₂ (k - 8)

/-- What an INIT of the serial reader dispatched in `s` leaves (R201, R215). -/
theorem serial_init {s : State} (hq : s.phase = .dispatch) (hop : s.op = .init) (hgood : configured s = true) (hv : variantOf s = .psx)
    (hlit : s.cfg.timing.AtLeastLiterals) :
    ∃ l : Nat → Level, Records s.world (after 77 s).world (phaseEvents .pInit s ++
        frameEvents s.cfg.timing [0x00#8] l ++ frameEvents s.cfg.timing [0x00#8] fun k => l (8 + k)) ∧
      (after 77 s).prime = false ∧ (after 77 s).framecnt = 2#2 ∧ (after 77 s).outlvl.get .cmd = some .L := by
  have hone : after 1 s = { dropResponse s with phase := .pInit } := by
    rw [after_succ, after_zero, advance_dispatch_init hq hop hgood, hv]
    rfl
  have htwo : after 2 s = phaseNext .pInit { dropResponse s with phase := .pInit } := by
    rw [after_succ, advance_of_phase (q := .pInit) (by rw [hone]), hone]
    rfl
  have hinit : Records s.world (after 2 s).world (phaseEvents .pInit s) := by
    rw [htwo]
    exact records_phaseNext .pInit { dropResponse s with phase := .pInit }
  have hzero : (after 2 s).framecnt = 0#2 := by rw [htwo]; rfl
  obtain ⟨hrec₁, hcnt₁, -, hmore, -⟩ := priming_frame (u := after 2 s) (by rw [htwo]; rfl) (by rw [htwo]; rfl)
    (by rw [after_cfg]; exact hlit)
  obtain ⟨hq₂, hp₂⟩ := hmore (by rw [hzero]; decide)
  obtain ⟨hrec₂, hcnt₂, hcmd, -, hlast⟩ := priming_frame hq₂ hp₂ (by rw [after_cfg, after_cfg]; exact hlit)
  rw [hcnt₁, hzero] at hcnt₂ hlast
  obtain ⟨hresp, hp₃⟩ := hlast (by decide)
  obtain ⟨hworld, hprime, hcnt, hout⟩ := advance_respond hresp
  rw [show 77 = 0 + 1 + (37 + (37 + 2)) from rfl, after_add, after_succ, after_zero, after_add 37, after_add 37, hworld, hprime, hcnt,
    hout]
  refine ⟨primingLevel (after 2 s) (after 37 (after 2 s)), ?_, hp₃, hcnt₂, hcmd⟩
  rw [after_cfg] at hrec₁
  rw [after_cfg, after_cfg] at hrec₂
  have hfirst : ∀ k < 8, primingLevel (after 2 s) (after 37 (after 2 s)) k = frameLevel (after 2 s) k := fun k hk => if_pos hk
  have hsecond : ∀ k < 8, primingLevel (after 2 s) (after 37 (after 2 s)) (8 + k) = frameLevel (after 37 (after 2 s)) k :=
    fun k _ => by simp [primingLevel]
  rw [frameEvents_congr hlit hfirst, frameEvents_congr hlit hsecond]
  exact (hinit.append hrec₁).append hrec₂

/-- Settles O59: the init phase of the variant and the response, and for PSX the two priming frames between them. -/
theorem initLeavesTheReaderReady : Obligations.InitLeavesTheReaderReady := by
  unfold Obligations.InitLeavesTheReaderReady
  intro s h hrst hq hop hgood hlit
  have hrun := running_of_dispatch h hrst hq fun _ => hgood
  have hend := answered_of_running hrun
  have hsteps := stepsLeft_of_init hq hop
  obtain ⟨hmask, hfield⟩ := mask_field_after hrun hop le_rfl
  have hvt := variantOf_after (stepsLeft s) s
  obtain ⟨hmode, hout, -⟩ := hend.inv.1.1 hend.pinsConfigured
  rw [hvt, hend.phase] at hout
  refine ⟨after (stepsLeft s) s, hend.phase, hend.rspValid, hend.inited, hmask, hfield, fun p => ?_, fun hv => ?_, fun hv => ?_,
    fun hv => ?_⟩
  · rw [hmode, hvt, get_initModes]
    simp [hasRole]
  · have hinited := (op_init_iff h.2.2.1 (by simp [hq]) (by simp [hq])).mp hop
    obtain ⟨-, hraw⟩ := h.1.2 (by simp [pinsConfigured, hq, hinited])
    rw [hv] at hsteps hout
    refine ⟨?_, by rw [hout, hraw, drivenLines_gpio]⟩
    have hruns := hend.runs
    rw [hsteps] at hruns ⊢
    exact hruns
  · have hthree : stepsLeft s = 3 := by
      rw [hsteps]
      rcases hv with hv | hv <;> rw [hv] <;> rfl
    refine ⟨?_, ?_, ?_⟩
    · have hruns := hend.runs
      rw [hthree] at hruns ⊢
      exact hruns
    · rw [hout]
      rcases hv with hv | hv <;> rw [hv] <;> simp [drivenLines, latchLevel]
    · rw [hout]
      rcases hv with hv | hv <;> rw [hv] <;> simp [drivenLines, clockLevel]
  · rw [hv] at hsteps hout
    obtain ⟨l, hrec, hprime, hcnt, hcmd⟩ := serial_init hq hop hgood hv hlit
    have hruns := hend.runs
    rw [show stepsLeft s = 77 from hsteps] at hruns hout ⊢
    have hlasts := hrec.lasts
    have hhold := fun l => sum_holds_frameEvents hlit [0x00#8] l
    simp only [List.map_append, List.sum_append, List.length_singleton] at hlasts hhold
    have hfirst := hhold l
    have hsecond := hhold fun k => l (8 + k)
    have hhappened := hrec.happened
    simp only [List.countP_append, countP_isSample_frameEvents hlit] at hhappened
    refine ⟨hruns, hprime, hcnt, ?_, ?_, hcmd, by omega, l, hhappened⟩
    · rw [hout]
      simp [drivenLines, attLevel, Phase.inFrame]
    · rw [hout]
      simp [drivenLines, clkLevel]

end Sys2Proof.Proofs.SerialPoll
end

section
/-! Two polls of the same samples give the same mask (R65, R131, R132). -/
namespace Sys2Proof.Proofs.Independence
open Sys2Proof Sys2Proof.Machine Sys2Proof.Proofs.Timeline Sys2Proof.Proofs.Invariant Sys2Proof.Proofs.Progress Sys2Proof.Proofs.Polls
  Sys2Proof.Proofs.DirectPoll Sys2Proof.Proofs.ShiftPoll Sys2Proof.Proofs.Frame Sys2Proof.Proofs.SerialPoll

/-- The poll dispatched in `s` has given the mask `m`: what `g` makes of `n` samples, which are the environment's answers from the
one at place `offset` on, as far as the environment drives a level. -/
def Polled {w : Nat} (g : BitVec w → Byte) (offset n : Nat) (s : State) (m : Byte) : Prop :=
  ∃ v l, BitsRead v l n ∧ (∀ k < n, ∀ a, s.world.env[offset + k]? = some (some a) → l k = a) ∧ m = g v

/-- Environments that drive the same levels give the same mask. -/
theorem Polled.agree {w : Nat} {g : BitVec w → Byte} {offset n : Nat} {s₁ s₂ : State} {m₁ m₂ : Byte} (h₁ : Polled g offset n s₁ m₁)
    (h₂ : Polled g offset n s₂ m₂) {ls : List Level} (hn : offset + n ≤ ls.length) (hp₁ : ls.map some <+: s₁.world.env)
    (hp₂ : ls.map some <+: s₂.world.env) : m₁ = m₂ := by
  obtain ⟨v₁, l₁, hv₁, hl₁, rfl⟩ := h₁
  obtain ⟨v₂, l₂, hv₂, hl₂, rfl⟩ := h₂
  refine congrArg g (hv₁.unique hv₂ fun k hk => ?_)
  have hlt : offset + k < ls.length := by omega
  have hget : ∀ env, ls.map some <+: env → env[offset + k]? = some (some ls[offset + k]) := by
    rintro env ⟨rest, rfl⟩
    rw [List.getElem?_append_left (by simpa using hlt), List.getElem?_map, List.getElem?_eq_getElem hlt]
    rfl
  rw [hl₁ k hk _ (hget _ hp₁), hl₂ k hk _ (hget _ hp₂)]

section
variable {s : State} (hq : s.phase = .dispatch) (hop : s.op ≠ .init)
include hq hop

theorem polled_direct (hv : variantOf s = .gpio) : Polled remapGpioFn 0 8 s (after 12 s).mask := by
  obtain ⟨-, hmask⟩ := after_direct_poll hq hop hv
  refine ⟨_, directLevel s, (sampled_after hq hop hv le_rfl).scr, fun k hk a ha => ?_, hmask⟩
  exact level_of_env (happened_before (sampled_after hq hop hv hk.le)) (Nat.zero_add k ▸ ha)

theorem polled_shift (hv : variantOf s = .nes ∨ variantOf s = .snes) (hlit : s.cfg.timing.AtLeastLiterals) :
    Polled (if variantOf s = .nes then remapNesFn else remapSnesFn) 0 (frameBits s) s (after (5 + 3 * frameBits s) s).mask := by
  obtain ⟨v, hbits, hmask, -⟩ := after_shift_poll hq hop hv hlit
  refine ⟨v, shiftLevel s, hbits, fun k hk a ha => shiftLevel_of_env hq hop hv hlit hk.le (Nat.zero_add k ▸ ha), ?_⟩
  rw [hmask]
  split_ifs <;> rfl

theorem polled_serial (hv : variantOf s = .psx) (hp : s.prime = false) (hlit : s.cfg.timing.AtLeastLiterals) :
    Polled remapPsxFn 24 16 s (after 176 s).mask := by
  obtain ⟨f, hf, henv, -, -, hmask, -⟩ := serial_poll hq hop hv hp hlit
  exact ⟨f, fun k => frameLevel (after 1 s) (24 + k), fun k hk => by rw [hf k hk, decide_eq_true hk, Bool.true_and], fun k hk a ha => henv _ (by omega) a ha, hmask⟩

end

/-- The place of the samples a poll keeps, their number, and what it makes of them. -/
theorem polled_of_inv {s t : State} (h : Inv s) (hrst : s.port.rst = false) (hq : s.phase = .dispatch) (hop : s.op ≠ .init)
    (hlit : s.cfg.timing.AtLeastLiterals) (ht : Runs (stepsLeft s) s t) :
    (variantOf s = .gpio → Polled remapGpioFn 0 8 s t.mask) ∧ (variantOf s = .nes → Polled remapNesFn 0 8 s t.mask) ∧
      (variantOf s = .snes → Polled remapSnesFn 0 12 s t.mask) ∧ (variantOf s = .psx → Polled remapPsxFn 24 16 s t.mask) := by
  obtain ⟨-, -, -, hprime⟩ := dispatched_poll h hq hop
  have hrun := running_of_dispatch h hrst hq fun hinit => absurd hinit hop
  obtain rfl := runs_unique ht (hrun.runs le_rfl)
  have hsteps := stepsLeft_of_poll hq hop
  refine ⟨fun hv => ?_, fun hv => ?_, fun hv => ?_, fun hv => ?_⟩
  · rw [hv] at hsteps
    rw [hsteps]
    exact polled_direct hq hop hv
  · have hpolled := polled_shift hq hop (.inl hv) hlit
    have hbits : frameBits s = 8 := by rw [frameBits, if_pos hv]
    rw [hv] at hsteps
    rwa [if_pos hv, hbits, ← show stepsLeft s = 5 + 3 * 8 from hsteps] at hpolled
  · have hne : variantOf s ≠ .nes := by simp [hv]
    have hpolled := polled_shift hq hop (.inr hv) hlit
    have hbits : frameBits s = 12 := by rw [frameBits, if_neg hne]
    rw [hv] at hsteps
    rwa [if_neg hne, hbits, ← show stepsLeft s = 5 + 3 * 12 from hsteps] at hpolled
  · rw [hv] at hsteps
    rw [hsteps]
    exact polled_serial hq hop hv hprime hlit

/-- Settles O60: a poll's mask is a function of its samples, and the samples are the levels the environment drives. -/
theorem pollsDependOnTheirSamplesOnly : Obligations.PollsDependOnTheirSamplesOnly := by
  unfold Obligations.PollsDependOnTheirSamplesOnly
  intro s₁ s₂ t₁ t₂ ls h₁ h₂ hrst₁ hrst₂ hq₁ hq₂ hop₁ hop₂ hv hlit₁ hlit₂ hlen hp₁ hp₂ ht₁ ht₂
  obtain ⟨-, hne, -, -⟩ := dispatched_poll h₁ hq₁ hop₁
  obtain ⟨hg₁, hn₁, hs₁, hx₁⟩ := polled_of_inv h₁ hrst₁ hq₁ hop₁ hlit₁ ht₁
  obtain ⟨hg₂, hn₂, hs₂, hx₂⟩ := polled_of_inv h₂ hrst₂ hq₂ hop₂ hlit₂ ht₂
  rw [← hv] at hg₂ hn₂ hs₂ hx₂
  cases hvar : variantOf s₁ with
  | unselected => exact absurd hvar hne
  | gpio => exact (hg₁ hvar).agree (hg₂ hvar) (by omega) hp₁ hp₂
  | nes => exact (hn₁ hvar).agree (hn₂ hvar) (by omega) hp₁ hp₂
  | snes => exact (hs₁ hvar).agree (hs₂ hvar) (by omega) hp₁ hp₂
  | psx => exact (hx₁ hvar).agree (hx₂ hvar) (by omega) hp₁ hp₂

end Sys2Proof.Proofs.Independence
end

section
/-! The pin primitives as operations (R140 to R145). -/
namespace Sys2Proof.Proofs.Primitives
open Sys2Proof Sys2Proof.Machine Sys2Proof.Proofs.Steps

/-- Settles O28. -/
theorem configurationPrimitivesSetTheMode : Obligations.ConfigurationPrimitivesSetTheMode := by
  unfold Obligations.ConfigurationPrimitivesSetTheMode
  intro s p hp
  have hset : ∀ m e, configure p m e s = .next (withMode p m e s) := fun m e => configure_of_hasRole hp
  exact ⟨⟨_, hset .out (.cfgOut p), happened_emit _ _⟩, ⟨_, hset .inp (.cfgIn p), happened_emit _ _⟩,
    ⟨_, hset .inpPullUp (.cfgInPu p), happened_emit _ _⟩⟩

/-- Settles O29. -/
theorem drvDrivesOneLine : Obligations.DrvDrivesOneLine := by
  unfold Obligations.DrvDrivesOneLine
  exact fun s p v hp hm => ⟨_, drive_of_canDrive ⟨hp, hm⟩ v, happened_emit _ _⟩

/-- Settles O30. -/
theorem smpObservesOneLine : Obligations.SmpObservesOneLine := by
  unfold Obligations.SmpObservesOneLine
  intro s p hp hm
  have hread : CanRead p s := ⟨hp, by simpa [canSample] using hm⟩
  have hexec : exec (.smp p) s = .next { s with world := s.world.sampled p (levelAt p s) } :=
    sample_eq_next (k := fun _ t => .next t) |>.mpr ⟨hread, rfl⟩
  exact ⟨levelAt p s, _, hexec, happened_sampled _ _ _, levelAt_answers p s⟩

/-- Settles O31. -/
theorem dlyLastsAtLeastItsTime : Obligations.DlyLastsAtLeastItsTime := by
  unfold Obligations.DlyLastsAtLeastItsTime
  exact fun s t => ⟨_, rfl, happened_delay _ _, delay_now _ _⟩

/-- Settles O32: each primitive asks for the role first, then for the mode. -/
theorem primitivesStopOutsideTheirRequire : Obligations.PrimitivesStopOutsideTheirRequire := by
  unfold Obligations.PrimitivesStopOutsideTheirRequire
  refine fun s p v => ⟨fun hp i hi => ?_, fun hp hm => ?_, fun hp hin hpu => ?_⟩
  · have hno : ¬ hasRole s p = true := by simp [hp]
    have hset : ∀ m e, configure p m e s = .fault (.noSuchRole p) := fun m e => configure_fault.mpr ⟨hp, rfl⟩
    simp only [List.mem_cons, List.not_mem_nil, or_false] at hi
    obtain rfl | rfl | rfl | rfl | rfl := hi
    · exact hset .out (.cfgOut p)
    · exact hset .inp (.cfgIn p)
    · exact hset .inpPullUp (.cfgInPu p)
    · exact if_neg hno
    · exact if_neg hno
  · exact (if_pos hp).trans (if_neg hm)
  · exact (if_pos hp).trans (if_neg (by simp [canSample, hin, hpu]))

end Sys2Proof.Proofs.Primitives
end

section
/-! Reset, the command port, and the phases every variant shares (R8, R40, R47, R121 to R129, R251 to R256, R280). -/
namespace Sys2Proof.Proofs.CommandPort
open Sys2Proof Sys2Proof.Machine Sys2Proof.Proofs.Steps Sys2Proof.Proofs.StepRules Sys2Proof.Proofs.Progress Sys2Proof.Proofs.Remap

/-! ### Reset -/

/-- Whatever the port and the record of the release hold, the reset values are those of R47. -/
theorem atReset_applyReset (s : State) (r : Bool) (p : Port) : AtReset { applyReset s with released := r, port := p } :=
  ⟨rfl, rfl, rfl, rfl, fun q => ⟨RoleMap.get_const _ q, RoleMap.get_const _ q⟩, rfl, rfl⟩

theorem step_of_rst {s : State} (h : s.port.rst = true) : step s = .next (applyReset s) := if_pos h

theorem atReset_setRst {s : State} {b : Bool} (h : s.port.rst = true ∨ b = true) : AtReset (s.setRst b) := by
  rw [setRst_of_reset h]
  exact atReset_applyReset s _ _

theorem atReset_present {s : State} (h : AtReset s) (o : BitVec 2) (a : Byte) : AtReset (s.present o a) := by
  obtain ⟨-, -, -, -, -, hready, -⟩ := id h
  rw [present_ready hready]
  exact h

theorem resetHolds_step {s t : State} (h : step s = .next t) : t.port.rst = s.port.rst ∧ ResetHolds t := by
  obtain ⟨hrst, rfl⟩ | ⟨hrst, -, o, -, rfl⟩ | ⟨hrst, -, -, rfl⟩ := step_cases h
  · exact ⟨rfl, fun _ => atReset_applyReset s s.released s.port⟩
  · exact ⟨rfl, fun hr => by simp [accepted, hrst] at hr⟩
  · exact ⟨by simp, fun hr => by simp [hrst] at hr⟩

/-- Settles O2: assertion, release and every step under reset give the reset values; no other move disturbs them. -/
theorem assertedResetAbandonsTheCommand : Obligations.AssertedResetAbandonsTheCommand := by
  unfold Obligations.AssertedResetAbandonsTheCommand
  refine ⟨fun s hrst => ?_, fun s b h => ?_, fun s h => setRst_of_running h, fun s h => ?_, fun c => ?_⟩
  · exact ⟨applyReset s, step_of_rst hrst, atReset_applyReset s s.released s.port, rfl, rfl, rfl⟩
  · exact ⟨atReset_setRst h, setRst_cfg b s, setRst_port b s, setRst_world b s⟩
  · refine ⟨fun t ht => resetHolds_step ht, fun b hb => ?_, fun o a hr => ?_⟩
    · exact atReset_setRst (.inr (by rwa [setRst_port] at hb))
    · exact atReset_present (h (by rwa [present_rst] at hr)) o a
  · exact ⟨nofun, rfl, atReset_applyReset (State.resetWith c) false { (State.resetWith c).port with rst := true }⟩

/-- Settles O1. -/
theorem resetLeavesTheTableOfValues : Obligations.ResetLeavesTheTableOfValues := by
  unfold Obligations.ResetLeavesTheTableOfValues
  intro c
  exact ⟨rfl, rfl, rfl, rfl, fun p => ⟨RoleMap.get_const _ p, RoleMap.get_const _ p⟩, rfl, rfl, rfl, rfl, rfl⟩

/-! ### Taking a command -/

theorem cmdReady_of_idle {s : State} (hq : s.phase = .idle) (hf : s.fault = .ok) : cmdReady s = true := by
  simp [cmdReady, hq, hf]

theorem acceptCommand_of_acceptable {o : HostOp} {a : Byte} {s : State} (hr : cmdReady s = true) (ho : acceptable o s = true) :
    acceptCommand o a s = .next { s with op := o, arg := a, phase := .dispatch, port := { s.port with cmdValid := false } } :=
  acceptCommand_next.mpr ⟨hr, ho, rfl⟩

theorem acceptCommand_of_not_acceptable {o : HostOp} {a : Byte} {s : State} (hr : cmdReady s = true) (ho : acceptable o s = false) :
    acceptCommand o a s = .refused (refusalOf o) :=
  acceptCommand_refused.mpr (.inl ⟨hr, ho, rfl⟩)

theorem acceptCommand_of_busy {o : HostOp} {a : Byte} {s : State} (hr : cmdReady s = false) :
    acceptCommand o a s = .refused .portNotReady :=
  acceptCommand_refused.mpr (.inr ⟨hr, rfl⟩)

/-- Settles O19. -/
theorem acceptableCommandsAreLatched : Obligations.AcceptableCommandsAreLatched := by
  unfold Obligations.AcceptableCommandsAreLatched
  intro s a hq hf
  have hready := cmdReady_of_idle hq hf
  refine ⟨fun hi => acceptCommand_of_acceptable hready ?_, fun hi => ⟨acceptCommand_of_acceptable hready hi,
    acceptCommand_of_acceptable hready hi⟩⟩
  simp [acceptable, hi]

/-- Settles O20. -/
theorem unacceptableCommandsAreRefused : Obligations.UnacceptableCommandsAreRefused := by
  unfold Obligations.UnacceptableCommandsAreRefused
  intro s a
  refine ⟨fun hr => if_pos hr, fun hr hi => acceptCommand_of_not_acceptable hr (by simp [acceptable, hi]), fun hr hi =>
    ⟨acceptCommand_of_not_acceptable hr hi, acceptCommand_of_not_acceptable hr hi⟩, fun hr i hi => ?_⟩
  have hreserved : exec (.cmdReserved a) s = .refused .portNotReady := if_neg (by simp [hr])
  simp only [List.mem_cons, List.not_mem_nil, or_false] at hi
  obtain rfl | rfl | rfl | rfl := hi
  · exact acceptCommand_of_busy hr
  · exact acceptCommand_of_busy hr
  · exact acceptCommand_of_busy hr
  · exact hreserved

/-- IDLE does with a presented command what its operation does (R122). -/
theorem exec_idle_of_command {s : State} (hvalid : s.port.cmdValid = true) (hready : cmdReady s = true) :
    exec .idle s = exec (cmdInstr s.port.cmdOp s.port.cmdArg) s := by
  rw [exec_cmdInstr]
  show execIdle s = _
  rw [execIdle, if_pos (by simp [hvalid, hready])]
  cases HostOp.ofCode s.port.cmdOp with
  | some o => rfl
  | none => exact (if_pos hready).symm

theorem hostDuty_step {s t : State} (hduty : HostDuty s) (h : step s = .next t) : HostDuty t := by
  obtain ⟨-, rfl⟩ | ⟨-, -, o, -, rfl⟩ | ⟨-, hquiet, -, rfl⟩ := step_cases h
  · exact fun _ => rfl
  · exact nofun
  · intro hvalid
    rw [phaseNext_port] at hvalid
    have hseen : commandSeen s = true := by
      simp [commandSeen, hduty hvalid]
      exact hvalid
    rw [hquiet] at hseen
    cases hseen

/-- Settles O21. -/
theorem idleTakesWhatThePortPresents : Obligations.IdleTakesWhatThePortPresents := by
  unfold Obligations.IdleTakesWhatThePortPresents
  intro s
  refine ⟨fun hvalid => if_neg (by simp [hvalid]), fun hvalid hq hf => exec_idle_of_command hvalid (cmdReady_of_idle hq hf),
    fun hq p => ?_, fun o a => ⟨fun hr => present_busy hr o a, fun hr => present_ready hr o a, fun hduty => present_duty hduty o a⟩,
    fun t hduty ht => hostDuty_step hduty ht⟩
  have hquiet : commandSeen { s with port := p } = false := commandSeen_of_busy hq
  exact if_neg (by simp [hquiet])

/-! ### DISPATCH -/

theorem exec_dispatch (s : State) : exec .dispatch s = .next (dispatchNext s) := execDispatch_eq s

theorem exec_dispatch_of_init {s : State} (hop : s.op = .init) (hv : variantOf s ≠ .unselected) (hpin : pinmapValid s.cfg = true) :
    exec .dispatch s = .next { s with phase := initPhase (variantOf s) } := by
  rw [exec_dispatch, dispatchNext, if_pos hop, if_neg hv, if_neg (by simp [hpin])]

theorem exec_dispatch_of_poll {s : State} (hop : s.op ≠ .init) :
    exec .dispatch s = .next { s with phase := pollPhase (variantOf s) } := by
  rw [exec_dispatch, dispatchNext, if_neg hop]

/-- Settles O22. -/
theorem dispatchChecksThenJumps : Obligations.DispatchChecksThenJumps := by
  unfold Obligations.DispatchChecksThenJumps
  refine ⟨fun s hop => ⟨fun hv => ?_, fun hv hpin => ?_, fun hpin => ⟨fun hv => ?_, fun hv => ?_, fun hv => ?_⟩⟩,
    fun s hop => ⟨fun hv => ?_, fun hv => ?_, fun hg hn hs => ?_⟩, fun s h hq hop => ?_⟩
  · rw [exec_dispatch, dispatchNext, if_pos hop, if_pos hv]
  · rw [exec_dispatch, dispatchNext, if_pos hop, if_neg hv, if_pos hpin]
  · rw [exec_dispatch_of_init hop (by simp [hv]) hpin, hv]
    rfl
  · rcases hv with hv | hv <;> rw [exec_dispatch_of_init hop (by simp [hv]) hpin, hv] <;> rfl
  · rw [exec_dispatch_of_init hop (by simp [hv]) hpin, hv]
    rfl
  · rw [exec_dispatch_of_poll hop, hv]
    rfl
  · rcases hv with hv | hv <;> rw [exec_dispatch_of_poll hop, hv] <;> rfl
  · have hpoll : pollPhase (variantOf s) = .pSettle := by
      cases hv : variantOf s
      case gpio | nes | snes => contradiction
      all_goals rfl
    rw [exec_dispatch_of_poll hop, hpoll]
  · obtain ⟨-, hv, hinited, -⟩ := dispatched_poll h hq hop
    exact ⟨hinited, hv⟩

/-! ### The configuration -/

theorem hasRole_iff (s : State) (p : Role) : hasRole s p = true ↔ p ∈ (variantOf s).roles := decide_eq_true_iff

theorem allRolesBound_iff (s : State) : allRolesBound s.cfg = true ↔ ∀ p, hasRole s p = true → s.cfg.pinmap.get p ≠ none := by
  simp only [allRolesBound, hasRole_iff, List.all_eq_true, Option.isSome_iff_ne_none]
  rfl

theorem supplierAccepts_iff (s : State) : supplierAccepts s.cfg = true ↔ (variantOf s, s.cfg.pinmap) ∈ s.cfg.accepted :=
  decide_eq_true_iff

theorem pinmapValid_iff (s : State) : pinmapValid s.cfg = true ↔
    (variantOf s, s.cfg.pinmap) ∈ s.cfg.accepted ∧ ∀ p, hasRole s p = true → s.cfg.pinmap.get p ≠ none := by
  rw [pinmapValid, Bool.and_eq_true, supplierAccepts_iff, allRolesBound_iff]

/-- Settles O23. -/
theorem unboundRoleIsBadPinmap : Obligations.UnboundRoleIsBadPinmap := by
  unfold Obligations.UnboundRoleIsBadPinmap
  refine fun s => ⟨fun ⟨p, hp, hnone⟩ => ?_, fun hrejected => ?_, fun haccepted hbound => (pinmapValid_iff s).mpr ⟨haccepted, hbound⟩⟩
  · by_contra hvalid
    exact ((pinmapValid_iff s).mp (by simpa using hvalid)).2 p hp hnone
  · by_contra hvalid
    exact hrejected ((pinmapValid_iff s).mp (by simpa using hvalid)).1

theorem selectVariant_of_reset {s : State} (hrst : s.port.rst = true) (hrel : s.released = false) (v : Variant) :
    selectVariant v s = .next { s with cfg := { s.cfg with variant := v.code } } :=
  selectVariant_eq_next.mpr ⟨hrst, hrel, rfl⟩

theorem selectVariant_of_released {s : State} (h : s.port.rst = false ∨ s.released = true) (v : Variant) :
    selectVariant v s = .refused .configurationFixed :=
  if_neg (by rcases h with h | h <;> simp [h])

theorem ofCode_eq_unselected_iff (c : BitVec 3) : Variant.ofCode c = .unselected ↔ c = 0#3 ∨ 5#3 ≤ c := by
  revert c
  decide

/-- Settles O27. -/
theorem variantIsSelectedBeforeResetIsReleased : Obligations.VariantIsSelectedBeforeResetIsReleased := by
  unfold Obligations.VariantIsSelectedBeforeResetIsReleased
  refine ⟨fun s hrst hrel => ?_, fun s h i hi => ?_, fun s => ⟨?_, fun hrel => ?_, fun hrst hrel => ?_⟩,
    fun s => ofCode_eq_unselected_iff s.cfg.variant⟩
  · have hselect := selectVariant_of_reset hrst hrel
    exact ⟨hselect .unselected, hselect .gpio, hselect .nes, hselect .snes, hselect .psx⟩
  · have hrefuse := selectVariant_of_released h
    simp only [List.mem_cons, List.not_mem_nil, or_false] at hi
    obtain rfl | rfl | rfl | rfl | rfl := hi
    · exact hrefuse .unselected
    · exact hrefuse .gpio
    · exact hrefuse .nes
    · exact hrefuse .snes
    · exact hrefuse .psx
  · simp
  · simp [hrel]
  · simp [hrst, hrel]

/-- Settles O26. -/
theorem faultCodesRaiseTheirErrors : Obligations.FaultCodesRaiseTheirErrors := by
  unfold Obligations.FaultCodesRaiseTheirErrors
  exact fun s => ⟨rfl, raiseConfigError_next .noVariant s, raiseConfigError_next .badPinmap s⟩

/-! ### RESPOND and HALT -/

theorem anyPressed_iff (mask arg : Byte) : anyPressed mask arg = true ↔ ∃ k < 8, mask.getLsbD k = true ∧ arg.getLsbD k = true := by
  rw [anyPressed, bne_iff_ne, and_ne_zero_iff]

/-- Settles O24. -/
theorem respondPresentsTheResult : Obligations.RespondPresentsTheResult := by
  unfold Obligations.RespondPresentsTheResult
  intro s
  have hop : (phaseNext .respond s).op = s.op := rfl
  refine ⟨phaseNext .respond s, rfl, rfl, ?_, fun h => if_neg h, fun h => ?_, rfl, fun h => ?_, fun h => ?_, fun h => ?_, fun h => ?_⟩
  · simp [phaseNext_inited]
  · have hbool : (phaseNext .respond s).bool = anyPressed s.mask s.arg := if_pos h
    rw [hbool, anyPressed_iff]
  · rw [rspMask_eq, if_pos (hop.trans h)]
    rfl
  · rw [rspBool_eq, if_pos (hop.trans h)]
  · rw [rspMask_eq, if_neg (hop ▸ h)]
  · rw [rspBool_eq, if_neg (hop ▸ h)]

/-- HALT leaves everything but `rsp_valid` (R126). -/
theorem halt_next {s : State} (hq : s.phase = .halt) : phaseNext .halt s = dropResponse s := by
  simp only [phaseNext, dropResponse, ← hq]

theorem step_of_halt {s : State} (hq : s.phase = .halt) (hrst : s.port.rst = false) : step s = .next (dropResponse s) := by
  have hquiet : commandSeen s = false := commandSeen_of_busy (by simp [hq])
  rw [step_of_phaseOk hrst hquiet (by rw [hq]; trivial), hq, halt_next (s := dropResponse s) hq]
  rfl

theorem runs_of_halt {s : State} (hq : s.phase = .halt) (hrst : s.port.rst = false) (n : Nat) : Runs (n + 1) s (dropResponse s) := by
  induction n generalizing s with
  | zero => exact runs_succ.mpr ⟨_, step_of_halt hq hrst, runs_zero.mpr rfl⟩
  | succ n ih => exact runs_succ.mpr ⟨_, step_of_halt hq hrst, ih (s := dropResponse s) hq hrst⟩

/-- Settles O25. -/
theorem haltIsForEver : Obligations.HaltIsForEver := by
  unfold Obligations.HaltIsForEver
  intro s hq hrst
  have hready : cmdReady s = false := by simp [cmdReady, hq]
  refine ⟨congrArg Host.Outcome.next (halt_next hq), fun p hp => ⟨_, step_of_halt (s := { s with port := p }) hq hp, hq⟩, fun n => ?_⟩
  cases n with
  | zero => exact ⟨s, runs_zero.mpr rfl, hq, rfl, rfl, rfl, rfl, hready, fun h => absurd h (Nat.lt_irrefl 0)⟩
  | succ n => exact ⟨dropResponse s, runs_of_halt hq hrst n, hq, rfl, rfl, rfl, rfl, hready, fun _ => rfl⟩

end Sys2Proof.Proofs.CommandPort
end

section
/-! The phases of the readers, each as one exact update with its pin events (R160 to R178, R201 to R212). -/
namespace Sys2Proof.Proofs.ReaderPhases
open Sys2Proof Sys2Proof.Machine Sys2Proof.Proofs.Steps Sys2Proof.Proofs.StepRules Sys2Proof.Proofs.Timeline
  Sys2Proof.Proofs.RoleMaps Sys2Proof.Proofs.Remap Sys2Proof.Proofs.Progress Sys2Proof.Proofs.Polls

/-- A phase whose requirements hold leaves the state `phaseNext` says. -/
theorem exec_of_phaseOk {q : Phase} {s : State} (hok : PhaseOk q s) (hq : q ≠ .idle) :
    exec (phaseInstr q) s = .next (phaseNext q s) :=
  (exec_phase_eq_next fun h => absurd h hq).mpr ⟨hok, rfl⟩

theorem happened_phaseNext {q : Phase} {s : State} {evs : List Event} (h : phaseEvents q s = evs) :
    Happened s.world (phaseNext q s).world evs (evs.countP isSample) :=
  h ▸ (records_phaseNext q s).happened

/-- A phase that drives one line and holds it. -/
theorem happened_hold {q : Phase} {s : State} {p : Role} {v : Level} {t : Nat} (h : phaseEvents q s = .drv p v :: holdEvents t)
    (ht : 0 < t) : Happened s.world (phaseNext q s).world [.drv p v, .dly t] 0 ∧ s.world.now + t ≤ (phaseNext q s).world.now := by
  have hrec := records_phaseNext q s
  rw [h, holdEvents_of_pos ht] at hrec
  have hlasts := hrec.lasts
  exact ⟨hrec.happened, by simpa [holdOf] using hlasts⟩

theorem add_one_eq_ofNat {w : Nat} (k : BitVec w) : k + 1#w = BitVec.ofNat w (k.toNat + 1) := by
  rw [BitVec.ofNat_add, BitVec.ofNat_toNat, BitVec.setWidth_eq]

theorem canRead_of_mode {s : State} {p : Role} (hp : hasRole s p = true) (hm : s.mode.get p = .inp ∨ s.mode.get p = .inpPullUp) :
    CanRead p s :=
  ⟨hp, by simpa [canSample] using hm⟩

/-! ### The direct reader -/

theorem get_foldl_put_of_mem {α : Type} (a : α) (ps : List Role) (m : RoleMap α) {p : Role} (h : p ∈ ps) :
    (ps.foldl (fun m q => m.put q a) m : RoleMap α).get p = a := by
  induction ps generalizing m with
  | nil => cases h
  | cons q ps ih =>
    rw [List.foldl_cons]
    by_cases hp : p ∈ ps
    · exact ih _ hp
    · rw [get_foldl_put_of_notMem _ _ _ hp, get_put, if_pos ((List.mem_cons.mp h).resolve_right hp).symm]

/-- Settles O33. -/
theorem directInitPullsUpAndClearStartsAfresh : Obligations.DirectInitPullsUpAndClearStartsAfresh := by
  unfold Obligations.DirectInitPullsUpAndClearStartsAfresh
  refine ⟨fun s hv => ?_, fun s => rfl⟩
  have hok : PhaseOk .gInit s := fun p hp => hasRole_of_variant hv hp
  exact ⟨_, _, exec_of_phaseOk hok (by decide), fun i => get_foldl_put_of_mem _ _ _ (btn_mem_roles i),
    fun p hp => phaseNext_mode_of_not_hasRole hok hp, happened_phaseNext (q := .gInit) rfl⟩

/-- Settles O34. -/
theorem directSampleSetsOneBit : Obligations.DirectSampleSetsOneBit := by
  unfold Obligations.DirectSampleSetsOneBit
  intro s i hi hv hm
  have hbtn : buttonOf s.bitcnt = .btn i := by simp [buttonOf, hi]
  have hok : PhaseOk .gSmp s := ⟨hi ▸ i.isLt, hbtn ▸ canRead_of_mode (hasRole_of_variant hv (btn_mem_roles i)) hm⟩
  have hcount : (s.bitcnt + 1#4).toNat = i.val + 1 := by rw [toNat_succ (n := 8) (by omega) (by decide), hi]
  have hexec : exec .gSmp s = _ := exec_of_phaseOk hok (by decide)
  have hevs : phaseEvents .gSmp s = [.smp (.btn i) (levelAt (.btn i) s)] := by simp [phaseEvents, hbtn]
  refine ⟨_, _, _, ?_, joinsBit_setOnLow (levelAt (.btn i) s) _ _, happened_phaseNext hevs, levelAt_answers _ _⟩
  simp only [phaseNext, hbtn, hcount, Nat.succ_lt_succ_iff] at hexec ⊢
  rw [hexec, add_one_eq_ofNat, hi]

/-! ### The shift reader -/

theorem hasRole_shift {s : State} (hv : variantOf s = .nes ∨ variantOf s = .snes) {p : Role} (hp : p ∈ [Role.latch, .clock, .data]) :
    hasRole s p = true := by
  rcases hv with hv | hv <;> exact hasRole_of_variant hv hp

/-- Settles O37. -/
theorem shiftInitRestsTheLines : Obligations.ShiftInitRestsTheLines := by
  unfold Obligations.ShiftInitRestsTheLines
  exact fun s hv => ⟨_, exec_of_phaseOk (q := .sInit) (fun p hp => hasRole_shift hv hp) (by decide),
    happened_phaseNext (q := .sInit) rfl⟩

/-- Settles O38. -/
theorem shiftLatchHighHoldsTheLatch : Obligations.ShiftLatchHighHoldsTheLatch := by
  unfold Obligations.ShiftLatchHighHoldsTheLatch
  intro s hv hm hlit
  obtain ⟨hlatch, -⟩ := hlit
  obtain ⟨hhappened, hnow⟩ := happened_hold (q := .sLatchHi) (s := s) rfl (by omega)
  refine ⟨_, exec_of_phaseOk (q := .sLatchHi) ⟨hasRole_shift hv (by decide), hm⟩ (by decide), hhappened, hlatch, hnow, fun h hq => ?_⟩
  obtain ⟨-, hout, -⟩ := h.1.1 (by simp [pinsConfigured, hq, Phase.isInit])
  rw [hout, hq]
  rcases hv with hv | hv <;> simp [hv, drivenLines, clockLevel]

/-- Settles O39. -/
theorem shiftLatchLowSettles : Obligations.ShiftLatchLowSettles := by
  unfold Obligations.ShiftLatchLowSettles
  intro s hv hm hlit
  obtain ⟨-, hsettle, -⟩ := hlit
  obtain ⟨hhappened, hnow⟩ := happened_hold (q := .sLatchLo) (s := s) rfl (by omega)
  exact ⟨_, exec_of_phaseOk (q := .sLatchLo) ⟨hasRole_shift hv (by decide), hm⟩ (by decide), hhappened, hsettle, hnow⟩

/-- Settles O40. -/
theorem shiftSampleSetsOneBit : Obligations.ShiftSampleSetsOneBit := by
  unfold Obligations.ShiftSampleSetsOneBit
  intro s hv hm hbit
  have hok : PhaseOk .sSample s := ⟨hbit, canRead_of_mode (hasRole_shift hv (by decide)) (.inl hm)⟩
  exact ⟨_, _, _, exec_of_phaseOk hok (by decide), joinsBit_setOnLow _ _ _, happened_phaseNext (q := .sSample) rfl,
    levelAt_answers _ _⟩

/-- Settles O41. -/
theorem shiftClockLowHolds : Obligations.ShiftClockLowHolds := by
  unfold Obligations.ShiftClockLowHolds
  intro s hv hm hlit
  obtain ⟨-, -, hlo, -⟩ := hlit
  obtain ⟨hhappened, hnow⟩ := happened_hold (q := .sClkLo) (s := s) rfl (by omega)
  exact ⟨_, exec_of_phaseOk (q := .sClkLo) ⟨hasRole_shift hv (by decide), hm⟩ (by decide), hhappened, hlo, hnow⟩

/-- Settles O42. -/
theorem shiftClockHighAdvances : Obligations.ShiftClockHighAdvances := by
  unfold Obligations.ShiftClockHighAdvances
  intro s n hn hm hlit hbit
  have hv : variantOf s = .nes ∨ variantOf s = .snes := hn.imp And.left And.left
  have hframe : frameBits s = n ∧ n ≤ 12 := by rcases hn with ⟨hv, rfl⟩ | ⟨hv, rfl⟩ <;> simp [frameBits, hv]
  obtain ⟨rfl, hle⟩ := hframe
  obtain ⟨-, -, -, hhi, -⟩ := hlit
  have hcount : (s.bitcnt + 1#4).toNat = s.bitcnt.toNat + 1 := toNat_succ (n := 12) (by omega) (by decide)
  obtain ⟨hhappened, hnow⟩ := happened_hold (q := .sClkHi) (s := s) rfl (by omega)
  refine ⟨_, ?_, hhappened, hhi, hnow⟩
  rw [← add_one_eq_ofNat, ← hcount]
  exact exec_of_phaseOk (q := .sClkHi) ⟨hasRole_shift hv (by decide), hm⟩ (by decide)

theorem extractLsb_setWidth (v : BitVec 8) : (v.setWidth 12).extractLsb' 0 8 = v := by
  apply BitVec.eq_of_getLsbD_eq
  intro k hk
  have hwide : k < 12 := by omega
  simp [hk, hwide]

/-- Settles O43. -/
theorem shiftRemapByVariant : Obligations.ShiftRemapByVariant := by
  unfold Obligations.ShiftRemapByVariant
  refine ⟨fun s hv => ⟨remapNesFn s.scr, ?_, fun k hk => getLsbD_remapNesFn s.scr hk⟩, fun s hv => ⟨remapSnesFn s.scr, ?_, rfl⟩,
    fun s v => ?_⟩
  · have hmask : (if variantOf s = .nes then remapNesFn s.scr else remapSnesFn s.scr) = remapNesFn s.scr := if_pos hv
    rw [← hmask]
    rfl
  · have hmask : (if variantOf s = .nes then remapNesFn s.scr else remapSnesFn s.scr) = remapSnesFn s.scr := if_neg (by simp [hv])
    rw [← hmask]
    rfl
  · have hmask := extractLsb_setWidth v
    have hexec : exec (.remapNes v) s = .next { s with mask := (v.setWidth 12).extractLsb' 0 8 } := rfl
    have hexec' : exec (.remapGpio v) s = .next { s with mask := (v.setWidth 12).extractLsb' 0 8 } := rfl
    rw [hexec, hexec', hmask]
    exact ⟨rfl, rfl⟩

theorem toNat_le_three_of_high_bits {m : Byte} (h : ∀ k < 8, 2 ≤ k → m.getLsbD k = false) : m.toNat ≤ 3 := by
  refine Nat.le_of_lt_succ (Nat.lt_pow_two_of_testBit (n := 2) _ fun k hk => ?_)
  by_cases hlt : k < 8
  · exact h k hlt hk
  · exact BitVec.getLsbD_of_ge m k (by omega)

/-- Settles O44. -/
theorem snesFoldTable : Obligations.SnesFoldTable := by
  unfold Obligations.SnesFoldTable
  refine fun s v => ⟨remapSnesFn v, rfl, fun k hk hlo => getLsbD_remapSnesFn v hk hlo, getLsbD_remapSnesFn_zero v,
    getLsbD_remapSnesFn_one v, fun hlow => ?_, ?_, ?_⟩
  · exact toNat_le_three_of_high_bits fun k hk hlo => (getLsbD_remapSnesFn v hk hlo).trans (hlow k hk)
  · rintro rfl
    decide
  · rintro rfl
    decide

/-! ### The serial reader -/

/-- Settles O46. -/
theorem serialInitRestsTheLines : Obligations.SerialInitRestsTheLines := by
  unfold Obligations.SerialInitRestsTheLines
  exact fun s hv => ⟨_, exec_of_phaseOk (q := .pInit) (fun p hp => hasRole_of_variant hv hp) (by decide),
    happened_phaseNext (q := .pInit) rfl⟩

/-- Settles O47. -/
theorem serialFrameStartsWithAttention : Obligations.SerialFrameStartsWithAttention := by
  unfold Obligations.SerialFrameStartsWithAttention
  refine ⟨fun s hlit => ?_, fun s hv hm => ?_⟩
  · obtain ⟨-, -, -, -, hatt, -⟩ := hlit
    refine ⟨_, exec_of_phaseOk (q := .pSettle) trivial (by decide), ?_, hatt, delay_now _ _⟩
    exact happened_phaseNext (q := .pSettle) (holdEvents_of_pos (by omega))
  · exact ⟨_, exec_of_phaseOk (q := .pAttLo) ⟨hasRole_of_variant hv (by decide), hm⟩ (by decide),
      happened_phaseNext (q := .pAttLo) rfl⟩

theorem exec_pLoad {s : State} {b : Byte} (h : txByte s = some b) :
    exec .pLoad s = .next { s with tx := b, rx := 0#8, bitcnt := 0#4, phase := .xCmd } := by
  simp [exec, execPLoad, h, loadByte]

theorem exec_pLoad_of_none {s : State} (h : txByte s = none) : exec .pLoad s = .fault .noSuchFrameByte := by
  simp [exec, execPLoad, h]

/-- Settles O48. -/
theorem serialLoadPicksTheByte : Obligations.SerialLoadPicksTheByte := by
  unfold Obligations.SerialLoadPicksTheByte
  refine ⟨fun s hp => exec_pLoad (by simp [txByte, hp, primeByte]), fun s hp => ?_⟩
  have hhdr : txByte s = hdr[s.bytecnt.toNat]? := by simp [txByte, hp]
  refine ⟨fun hk => exec_pLoad ?_, fun hk => exec_pLoad ?_, fun hlo hhi => exec_pLoad ?_, fun hlo => exec_pLoad_of_none ?_⟩
  · rw [hhdr, hk]
    rfl
  · rw [hhdr, hk]
    rfl
  · rw [hhdr]
    generalize s.bytecnt.toNat = k at hlo hhi
    interval_cases k <;> rfl
  · rw [hhdr]
    exact List.getElem?_eq_none hlo

theorem lvl_eq_H_iff (b : Bool) : lvl b = .H ↔ b = true := by cases b <;> decide

/-- Settles O49. -/
theorem serialBitGoesOut : Obligations.SerialBitGoesOut := by
  unfold Obligations.SerialBitGoesOut
  refine ⟨fun s hv hm hbit => ?_, fun s hv hm => ?_⟩
  · exact ⟨_, _, exec_of_phaseOk (q := .xCmd) ⟨hbit, hasRole_of_variant hv (by decide), hm⟩ (by decide), lvl_eq_H_iff _,
      happened_phaseNext (q := .xCmd) rfl⟩
  · have hrec := records_phaseNext .xClkLo s
    refine ⟨(phaseNext .xClkLo s).world, exec_of_phaseOk (q := .xClkLo) ⟨hasRole_of_variant hv (by decide), hm⟩ (by decide), ?_, ?_⟩
    · simpa [phaseEvents, isSample] using hrec.happened
    · simpa [phaseEvents, holdOf] using hrec.lasts

/-- Settles O50. -/
theorem serialBitComesIn : Obligations.SerialBitComesIn := by
  unfold Obligations.SerialBitComesIn
  intro s hv hclk hdat hbit
  have hok : PhaseOk .xClkHi s :=
    ⟨hbit, ⟨hasRole_of_variant hv (by decide), hclk⟩, canRead_of_mode (hasRole_of_variant hv (by decide)) (.inl hdat)⟩
  exact ⟨edgeLevel s, _, _, exec_of_phaseOk hok (by decide), joinsBit_setOnLow _ _ _, happened_phaseNext (q := .xClkHi) rfl,
    levelAt_answers .dat { s with world := s.world.emit (.drv .clk .H) }⟩

/-- Settles O51. -/
theorem serialBitHoldAdvances : Obligations.SerialBitHoldAdvances := by
  unfold Obligations.SerialBitHoldAdvances
  intro s hlit hbit
  obtain ⟨-, -, -, -, -, hhold⟩ := hlit
  have hcount : (s.bitcnt + 1#4).toNat = s.bitcnt.toNat + 1 := toNat_succ (n := 8) (by omega) (by decide)
  have hmore : s.bitcnt.toNat < 7 ↔ (s.bitcnt + 1#4).toNat < 8 := by omega
  refine ⟨_, ?_, happened_phaseNext (q := .xHold) (holdEvents_of_pos (by omega)), hhold, delay_now _ _⟩
  simp only [hmore, ← add_one_eq_ofNat]
  exact exec_of_phaseOk (q := .xHold) trivial (by decide)

/-- Settles O52. -/
theorem serialStoreKeepsTheByte : Obligations.SerialStoreKeepsTheByte := by
  unfold Obligations.SerialStoreKeepsTheByte
  intro s hbyte
  have hcount : (s.bytecnt + 1#3).toNat = s.bytecnt.toNat + 1 := toNat_succ hbyte (by decide)
  have hmore : (s.prime = false ∧ s.bytecnt.toNat < 4) ↔ (s.bytecnt + 1#3).toNat < frameBytes s.prime := by
    cases s.prime
    · simp [frameBytes, hcount]
      omega
    · simp [frameBytes, hcount]
  refine ⟨s.rxbuf.setIfInBounds s.bytecnt.toNat s.rx, ?_, fun j => ?_⟩
  · simp only [hmore, ← add_one_eq_ofNat]
    exact exec_of_phaseOk (q := .pStore) hbyte (by decide)
  · simp [Vector.getElem_setIfInBounds, eq_comm]

/-- Settles O54. -/
theorem serialRemapTakesTheLastTwoBytes : Obligations.SerialRemapTakesTheLastTwoBytes := by
  unfold Obligations.SerialRemapTakesTheLastTwoBytes
  refine ⟨fun s => ⟨fieldOf s.rxbuf, remapPsxFn (fieldOf s.rxbuf), rfl, fun k hk => getLsbD_fieldOf s.rxbuf hk, rfl⟩,
    fun s hlow hhigh => ?_⟩
  have hfield : fieldOf s.rxbuf = 0x4010#16 := by
    rw [fieldOf, hlow, hhigh]
    rfl
  have hmask : remapPsxFn 0x4010#16 = 0x11#8 := by decide
  have hexec : exec .pRemap s = .next { s with field := fieldOf s.rxbuf, mask := remapPsxFn (fieldOf s.rxbuf), phase := .respond } := rfl
  rw [hexec, hfield, hmask]

/-- A field meets a constant exactly when one of the constant's bits is set in it. -/
theorem and_ne_zero_iff_of_bits {f c : BitVec 16} {ks : List Nat} (hc : ∀ k < 16, c.getLsbD k = decide (k ∈ ks)) (hks : ∀ k ∈ ks, k < 16) :
    f &&& c ≠ 0#16 ↔ ∃ k ∈ ks, f.getLsbD k = true := by
  rw [and_ne_zero_iff]
  constructor
  · rintro ⟨k, hk, hf, hbit⟩
    rw [hc k hk, decide_eq_true_iff] at hbit
    exact ⟨k, hbit, hf⟩
  · rintro ⟨k, hk, hf⟩
    exact ⟨k, hks k hk, hf, by rw [hc k (hks k hk), decide_eq_true hk]⟩

/-- Settles O55. -/
theorem serialFoldTable : Obligations.SerialFoldTable := by
  unfold Obligations.SerialFoldTable
  intro s f
  have hbit := getLsbD_remapPsxFn f
  have ha := and_ne_zero_iff_of_bits (f := f) (c := 0x6A04#16) (ks := [11, 9, 2, 14, 13]) (by decide) (by decide)
  have hb := and_ne_zero_iff_of_bits (f := f) (c := 0x9502#16) (ks := [10, 8, 1, 15, 12]) (by decide) (by decide)
  refine ⟨remapPsxFn f, rfl, ?_, ?_, hbit 2 (by decide), hbit 3 (by decide), hbit 4 (by decide), hbit 5 (by decide),
    hbit 6 (by decide), hbit 7 (by decide)⟩
  · rw [ha, hbit 0 (by decide)]
    simp [or_assoc]
  · rw [hb, hbit 1 (by decide)]
    simp [or_assoc]

end Sys2Proof.Proofs.ReaderPhases
end
